-- ==== Sys2Proof/Word.lean ====
section
/-! DEFINITION. The fixed widths of the block (00_scope.md R8): a bus or display byte is 8 bits, a nibble 4, a request
header 16, a bus address 7. -/

namespace Sys2Proof

/-- A bus, payload or display byte (R8). -/
abbrev Byte := BitVec 8

/-- Half a byte: what the display's four data lines carry at once (R8, glossary). -/
abbrev Nibble := BitVec 4

/-- A request header `OP[15:11] A[10:8] B[7:0]` (30_encoding.md R90). -/
abbrev Header := BitVec 16

/-- A 7-bit I2C device address (R8, 20_memory.md R51). -/
abbrev BusAddr := BitVec 7

end Sys2Proof
end

