-- ==== Sys2Proof/Syntax.lean ====
section
/-! DEFINITION. The request as delivered (30_encoding.md R90) and the instruction set: one constructor per row of
spec/opcode_table.json. A constructor keeps the operand fields A and B and the payload AS DELIVERED, since a value outside
the legal set is an instruction with a meaning of its own, BadOperand (R101, R102, 60_exceptions.md R207). -/

namespace Sys2Proof

/-- A request on the port: header and payload bytes in arrival order (R90, 10_state.md R33). -/
structure Request where
  header : Header
  payload : List Byte
  deriving DecidableEq, Repr

/-- The requests of R100, in the table's order; `a` is the field A, `b` the field B, `p` the payload. -/
inductive Instr where
  /-- OP 0x00, initialization sequence (41_sequencer.md R143) -/
  | init (a : BitVec 3) (b : Byte) (p : List Byte)
  /-- OP 0x01, full-byte command write (40_protocol_primitives.md R125) -/
  | wcmd (a : BitVec 3) (b : Byte) (p : List Byte)
  /-- OP 0x02, full-byte data write (R126) -/
  | wdata (a : BitVec 3) (b : Byte) (p : List Byte)
  /-- OP 0x03, single nibble write (R127) -/
  | nibble (a : BitVec 3) (b : Byte) (p : List Byte)
  /-- OP 0x04, cursor addressing by line (R146) -/
  | setline (a : BitVec 3) (b : Byte) (p : List Byte)
  /-- OP 0x05, line write (R147) -/
  | wline (a : BitVec 3) (b : Byte) (p : List Byte)
  /-- OP 0x06, extended-string write (R149) -/
  | wext (a : BitVec 3) (b : Byte) (p : List Byte)
  /-- OP 0x07, backlight control (R150) -/
  | bkl (a : BitVec 3) (b : Byte) (p : List Byte)
  /-- OP 0x08, program all 8 glyph slots (42_cgram.md R171) -/
  | ldglyph (a : BitVec 3) (b : Byte) (p : List Byte)
  /-- OP 0x09, read the status word (R151) -/
  | rdstat (a : BitVec 3) (b : Byte) (p : List Byte)
  /-- OP 0x0A, transport writeByte (43_transport.md R183) -/
  | xwb (a : BitVec 3) (b : Byte) (p : List Byte)
  /-- OP 0x0B, transport writeRegister (R184) -/
  | xwr (a : BitVec 3) (b : Byte) (p : List Byte)
  /-- OP 0x0C, transport writeBlock (R185); the payload is the count byte L, then L data bytes -/
  | xwblk (a : BitVec 3) (b : Byte) (p : List Byte)
  /-- OP 0x0D, transport readByte (R186) -/
  | xrb (a : BitVec 3) (b : Byte) (p : List Byte)
  /-- OP 0x0E, transport readRegister (R187) -/
  | xrr (a : BitVec 3) (b : Byte) (p : List Byte)
  /-- OP 0x0F, transport readBlock (R188) -/
  | xrblk (a : BitVec 3) (b : Byte) (p : List Byte)
  /-- OP 0x10 to 0x1F, reserved (R102): `op` is OP[3:0]; no payload is taken (R103) -/
  | reserved (op : BitVec 4) (a : BitVec 3) (b : Byte)
  deriving DecidableEq, Repr

end Sys2Proof
end

