-- ==== Sys2Proof/WellFormed.lean ====
section
/-! DEFINITION. Well-formed instructions: the field values and payload lengths that spec/opcode_table.json and
30_encoding.md R101, R103 fix WITHOUT reference to a configuration or a state. What depends on NUM_LINES, BLOCK_MAX and
the like is the acceptance check's (`legalOperands` in Machine/Operands.lean). -/

namespace Sys2Proof

/-- The payload of XWBLK: a count byte L, then exactly L bytes (R101, R103). -/
def countedPayload : List Byte → Bool
  | [] => false
  | l :: data => data.length == l.toNat

/-- An instruction whose header matches its row of the opcode table and whose payload has the length R103 gives. -/
def Instr.wellFormed : Instr → Bool
  | .init a b p => a == 0 && b == 0 && p.isEmpty
  | .wcmd a _ p => a == 0 && p.isEmpty
  | .wdata a _ p => a == 0 && p.isEmpty
  | .nibble a b p => a.extractLsb' 1 2 == 0 && b.extractLsb' 4 4 == 0 && p.isEmpty
  | .setline _ b p => b == 0 && p.isEmpty
  | .wline _ b p => p.length == b.toNat
  | .wext _ b p => p.length == b.toNat
  | .bkl _ b p => b == 0 && p.isEmpty
  | .ldglyph a b p => a == 0 && b == 0 && p.length == 64
  | .rdstat a b p => a == 0 && b == 0 && p.isEmpty
  | .xwb a _ p => a == 0 && p.isEmpty
  | .xwr a _ p => a == 0 && p.length == 1
  | .xwblk a _ p => a == 0 && countedPayload p
  | .xrb a b p => a == 0 && b == 0 && p.isEmpty
  | .xrr a _ p => a == 0 && p.isEmpty
  | .xrblk a _ p => a == 0 && p.isEmpty
  | .reserved _ _ _ => true

/-- The payload length is the one R103 frames; the fields A and B may hold any value. -/
def Instr.framed : Instr → Bool
  | .init _ _ p => p.isEmpty
  | .wcmd _ _ p => p.isEmpty
  | .wdata _ _ p => p.isEmpty
  | .nibble _ _ p => p.isEmpty
  | .setline _ _ p => p.isEmpty
  | .wline _ b p => p.length == b.toNat
  | .wext _ b p => p.length == b.toNat
  | .bkl _ _ p => p.isEmpty
  | .ldglyph _ _ p => p.length == 64
  | .rdstat _ _ p => p.isEmpty
  | .xwb _ _ p => p.isEmpty
  | .xwr _ _ p => p.length == 1
  | .xwblk _ _ p => countedPayload p
  | .xrb _ _ p => p.isEmpty
  | .xrr _ _ p => p.isEmpty
  | .xrblk _ _ p => p.isEmpty
  | .reserved _ _ _ => true

end Sys2Proof
end

