-- ==== Sys2Proof/Decode.lean ====
section
/-! DEFINITION. Decoding a request (30_encoding.md R90, R100 to R104) and a byte-wide port (R90, R103), and the encoder
written from the same tables. Decoding a delivered request is total. Decoding a byte stream is total too: it either gives
an instruction and the bytes after it, or says by name what is still missing. -/

namespace Sys2Proof

/-- `OP = h[15:11]` (R90). -/
def headerOp (h : Header) : BitVec 5 := h.extractLsb' 11 5

/-- `A = h[10:8]` (R90). -/
def headerA (h : Header) : BitVec 3 := h.extractLsb' 8 3

/-- `B = h[7:0]` (R90). -/
def headerB (h : Header) : Byte := h.extractLsb' 0 8

/-- The header of the fields OP, A, B (R90). -/
def makeHeader (op : BitVec 5) (a : BitVec 3) (b : Byte) : Header := op ++ a ++ b

/-- The instruction of a request as delivered (R100). OP 0x10 to 0x1F takes no payload (R103). -/
def decodeRequest (r : Request) : Instr :=
  let a := headerA r.header
  let b := headerB r.header
  let p := r.payload
  match (headerOp r.header).toNat with
  | 0 => .init a b p
  | 1 => .wcmd a b p
  | 2 => .wdata a b p
  | 3 => .nibble a b p
  | 4 => .setline a b p
  | 5 => .wline a b p
  | 6 => .wext a b p
  | 7 => .bkl a b p
  | 8 => .ldglyph a b p
  | 9 => .rdstat a b p
  | 10 => .xwb a b p
  | 11 => .xwr a b p
  | 12 => .xwblk a b p
  | 13 => .xrb a b p
  | 14 => .xrr a b p
  | 15 => .xrblk a b p
  | _ => .reserved ((headerOp r.header).extractLsb' 0 4) a b

/-- Why a byte stream does not give an instruction yet. Nothing is lost: the bytes wait for more. -/
inductive DecodeError where
  /-- fewer than the two header bytes -/
  | headerIncomplete
  /-- the header is there, `missing` payload bytes (for XWBLK, the count byte first) are not -/
  | payloadIncomplete (missing : Nat)
  deriving DecidableEq, Repr

/-- The payload length of a header, R103; `rest` is what follows the header, read for XWBLK only. -/
def payloadLength (h : Header) (rest : List Byte) : Nat :=
  match (headerOp h).toNat with
  | 5 => (headerB h).toNat
  | 6 => (headerB h).toNat
  | 8 => 64
  | 11 => 1
  | 12 => 1 + (rest.headD 0).toNat
  | _ => 0

/-- The byte-serial decoder of R103: two header bytes, high byte first, then exactly the payload. -/
def decodeBytes : List Byte → Except DecodeError (Instr × List Byte)
  | hi :: lo :: rest =>
    let h : Header := hi ++ lo
    let n := payloadLength h rest
    if n ≤ rest.length then
      .ok (decodeRequest { header := h, payload := rest.take n }, rest.drop n)
    else
      .error (.payloadIncomplete (n - rest.length))
  | _ => .error .headerIncomplete

/-- OP of an instruction (R100). -/
def instrOp : Instr → BitVec 5
  | .init _ _ _ => 0x00
  | .wcmd _ _ _ => 0x01
  | .wdata _ _ _ => 0x02
  | .nibble _ _ _ => 0x03
  | .setline _ _ _ => 0x04
  | .wline _ _ _ => 0x05
  | .wext _ _ _ => 0x06
  | .bkl _ _ _ => 0x07
  | .ldglyph _ _ _ => 0x08
  | .rdstat _ _ _ => 0x09
  | .xwb _ _ _ => 0x0A
  | .xwr _ _ _ => 0x0B
  | .xwblk _ _ _ => 0x0C
  | .xrb _ _ _ => 0x0D
  | .xrr _ _ _ => 0x0E
  | .xrblk _ _ _ => 0x0F
  | .reserved op _ _ => 1#1 ++ op

/-- The request that carries an instruction (R90). -/
def encodeRequest (i : Instr) : Request :=
  match i with
  | .init a b p => ⟨makeHeader (instrOp i) a b, p⟩
  | .wcmd a b p => ⟨makeHeader (instrOp i) a b, p⟩
  | .wdata a b p => ⟨makeHeader (instrOp i) a b, p⟩
  | .nibble a b p => ⟨makeHeader (instrOp i) a b, p⟩
  | .setline a b p => ⟨makeHeader (instrOp i) a b, p⟩
  | .wline a b p => ⟨makeHeader (instrOp i) a b, p⟩
  | .wext a b p => ⟨makeHeader (instrOp i) a b, p⟩
  | .bkl a b p => ⟨makeHeader (instrOp i) a b, p⟩
  | .ldglyph a b p => ⟨makeHeader (instrOp i) a b, p⟩
  | .rdstat a b p => ⟨makeHeader (instrOp i) a b, p⟩
  | .xwb a b p => ⟨makeHeader (instrOp i) a b, p⟩
  | .xwr a b p => ⟨makeHeader (instrOp i) a b, p⟩
  | .xwblk a b p => ⟨makeHeader (instrOp i) a b, p⟩
  | .xrb a b p => ⟨makeHeader (instrOp i) a b, p⟩
  | .xrr a b p => ⟨makeHeader (instrOp i) a b, p⟩
  | .xrblk a b p => ⟨makeHeader (instrOp i) a b, p⟩
  | .reserved _ a b => ⟨makeHeader (instrOp i) a b, []⟩

/-- A request as a byte-wide port carries it: header high byte first, then the payload (R90). -/
def requestBytes (r : Request) : List Byte :=
  r.header.extractLsb' 8 8 :: r.header.extractLsb' 0 8 :: r.payload

/-- The bytes of an instruction on a byte-wide port (R90). -/
def encode (i : Instr) : List Byte := requestBytes (encodeRequest i)

/-- The `n` low bytes of `v`, lowest first. -/
def lowBytes : Nat → Nat → List Byte
  | 0, _ => []
  | n + 1, v => BitVec.ofNat 8 v :: lowBytes n (v / 256)

/-- The bytes of an opcode-table word: the 16-bit header high byte first, then the bits above it a byte at a time, as far
as the payload this header frames. -/
def tableBytes (nbits w : Nat) : List Byte :=
  let v := w % 2 ^ nbits
  let hi := BitVec.ofNat 8 (v / 256)
  let lo := BitVec.ofNat 8 v
  hi :: lo :: lowBytes (payloadLength (hi ++ lo) [BitVec.ofNat 8 (v / 65536)]) (v / 65536)

/-- What the decoder reads from an instruction whose bits are `w`, numbered as spec/opcode_table.json numbers them; the
bits above `nbits` are 0. -/
def decodeTableWord (nbits w : Nat) : Option Instr :=
  match decodeBytes (tableBytes nbits w) with
  | .ok (i, _) => some i
  | .error _ => none

end Sys2Proof
end

