-- ==== Sys2Proof/Config.lean ====
section
/-! DEFINITION. The implementation parameters of 00_scope.md R6, the answers the external agents give (R11,
70_reset_and_hazards.md R232), and the free values: constants with no body, so that no proof can see what they are. -/

namespace Sys2Proof

/-- How a block read learns its length (R6, 43_transport.md R188). -/
inductive ReadBlockMode where
  /-- the device sends a count byte first -/
  | counted
  /-- READ_BLOCK_LEN bytes -/
  | fixed
  deriving DecidableEq, Repr

/-- The set-DDRAM command bytes of lines 1 to 4 (30_encoding.md R96). -/
structure LineBase where
  line1 : Byte
  line2 : Byte
  line3 : Byte
  line4 : Byte
  deriving DecidableEq, Repr

/-- The parameters of R6, under the names of its table. Indices and counts are naturals, so that a configuration
70_reset_and_hazards.md R234 refuses can be written down and refused. -/
structure Config where
  /-- HW_REV -/
  hwRev : Nat
  /-- EXPLICIT_ADDR -/
  explicitAddr : Option BusAddr
  /-- DEFAULT_ADDR -/
  defaultAddr : Option BusAddr
  /-- NUM_LINES -/
  numLines : Nat
  /-- NUM_COLS -/
  numCols : Nat
  /-- LINE_BASE where it is given explicitly; `none`: from NUM_COLS (R96) -/
  lineBase : Option LineBase
  /-- BL_INIT -/
  blInit : Bool
  /-- P_RS -/
  pRs : Nat
  /-- P_RW -/
  pRw : Nat
  /-- P_EN -/
  pEn : Nat
  /-- P_BL -/
  pBl : Nat
  /-- T_SETTLE, µs -/
  tSettle : Nat
  /-- T_EN_HIGH, µs -/
  tEnHigh : Nat
  /-- T_EN_LOW, µs -/
  tEnLow : Nat
  /-- T_INIT, µs -/
  tInit : Nat
  /-- T_LONG_CMD, µs -/
  tLongCmd : Nat
  /-- T_SYNC1, µs -/
  tSync1 : Nat
  /-- T_POR, µs -/
  tPor : Nat
  /-- ESC_ACCEPT_UPPER_X -/
  escAcceptUpperX : Bool
  /-- BLOCK_MAX -/
  blockMax : Nat
  /-- BLOCK_WRITE_COUNT_ON_WIRE -/
  blockWriteCountOnWire : Bool
  /-- READ_BLOCK_MODE -/
  readBlockMode : ReadBlockMode
  /-- READ_BLOCK_LEN -/
  readBlockLen : Nat
  deriving DecidableEq, Repr

/-- The environment's answer to one bus transaction (R11, 93_implementation_defined.md U8 to U10). -/
inductive BusAnswer where
  /-- the transaction completes; for a read, the bytes the environment chose, in bus order -/
  | ok (bytes : List Byte)
  /-- any bus error (43_transport.md R182) -/
  | fail
  /-- the transaction never completes (43_transport.md R192) -/
  | never
  deriving DecidableEq, Repr, Inhabited

/-- The prober's answer (R232): the responding addresses in the prober's own order, or nothing. -/
abbrev ProbeAnswer := Option (List BusAddr)

/-- FREE VALUE (notes/assumptions/3.md): HW_REV, which R6 leaves OPEN with no default. -/
opaque Config.freeHwRev : Nat

/-- FREE VALUE (notes/assumptions/1.md): the environment's answer number `n`, where no scripted answer is left. -/
opaque Config.freeAnswer : Nat → BusAnswer

/-- FREE VALUE (notes/assumptions/1.md): byte `j` of the data of transaction `n`, where the answer gives none. -/
opaque Config.freeByte : Nat → Nat → Byte

/-- FREE VALUE (notes/assumptions/1.md): the prober's answer at reset number `n`, where no scripted answer is left. -/
opaque Config.freeProbe : Nat → ProbeAnswer

end Sys2Proof
end

