-- ==== Sys2Proof/Machine/Params.lean ====
section
/-! DEFINITION. What reset derives from the parameters: the defaults of 00_scope.md R6, the line base tables
(30_encoding.md R96), the configuration check (70_reset_and_hazards.md R234), the address resolver (R231) and the bus
selection (R233). -/

namespace Sys2Proof.Machine

/-- The R6 defaults. HW_REV is OPEN: the free value Config.freeHwRev. -/
def defaultConfig : Config :=
  { hwRev := Config.freeHwRev
    explicitAddr := none
    defaultAddr := some 0x27
    numLines := 4
    numCols := 20
    lineBase := none
    blInit := true
    pRs := 0
    pRw := 1
    pEn := 2
    pBl := 3
    tSettle := 100
    tEnHigh := 500
    tEnLow := 100
    tInit := 200000
    tLongCmd := 0
    tSync1 := 0
    tPor := 0
    escAcceptUpperX := false
    blockMax := 32
    blockWriteCountOnWire := true
    readBlockMode := .counted
    readBlockLen := 32 }

/-- LINE_BASE in force (R96): the explicit table where given, else the table of NUM_COLS. -/
def lineBaseTable (c : Config) : LineBase :=
  match c.lineBase with
  | some t => t
  | none =>
    if c.numCols = 16 then ⟨0x80, 0xC0, 0x90, 0xD0⟩ else ⟨0x80, 0xC0, 0x94, 0xD4⟩

/-- `LINE_BASE[k]` for a line k in 1..4; a line operand 0 names no line. -/
def lineBaseAt (c : Config) (k : Nat) : Option Byte :=
  match k with
  | 1 => some (lineBaseTable c).line1
  | 2 => some (lineBaseTable c).line2
  | 3 => some (lineBaseTable c).line3
  | 4 => some (lineBaseTable c).line4
  | _ => none

/-- The four control bits are distinct expander bits in 0..3 (00_scope.md R7). -/
def controlBitsLegal (c : Config) : Bool :=
  decide (c.pRs < 4 ∧ c.pRw < 4 ∧ c.pEn < 4 ∧ c.pBl < 4 ∧ [c.pRs, c.pRw, c.pEn, c.pBl].Nodup)

/-- The configuration check of R234; a configuration that fails it is refused. -/
def configLegal (c : Config) : Bool :=
  controlBitsLegal c
    && (c.numLines == 1 || c.numLines == 2 || c.numLines == 4)
    && (c.numCols == 16 || c.numCols == 20 || c.lineBase.isSome)
    && decide (c.blockMax ≤ 254)
    && decide (c.readBlockLen ≤ c.blockMax)

/-- `Probe()`'s first reported address, if any (R231, R232). -/
def firstProbed (p : ProbeAnswer) : Option BusAddr :=
  match p with
  | some (a :: _) => some a
  | _ => none

/-- The resolver's order: explicit, then first probed, then default (R231). -/
def resolveAddr (c : Config) (p : ProbeAnswer) : Option BusAddr :=
  match c.explicitAddr with
  | some a => some a
  | none =>
    match firstProbed p with
    | some a => some a
    | none => c.defaultAddr

/-- ADDR as reset leaves it: 0 where nothing was resolved (R231, 10_state.md R30). -/
def resolvedAddr (c : Config) (p : ProbeAnswer) : BusAddr := (resolveAddr c p).getD 0

/-- ADDR_OK as reset leaves it (R231): one of the three sources gave an address. -/
def resolvedOk (c : Config) (p : ProbeAnswer) : Bool :=
  c.explicitAddr.isSome || c.defaultAddr.isSome || (firstProbed p).isSome

/-- BUS_SEL as reset leaves it (R233). -/
def selectBus (c : Config) : BitVec 1 := if c.hwRev = 1 then 0 else 1

end Sys2Proof.Machine
end

