-- ==== Sys2Proof/Machine/State.lean ====
section
/-! DEFINITION. The state of the block (10_state.md R20), of its ports, and of the environment's reference display
(20_memory.md R71), as plain data; the reasons a step can stop; and the state after reset (R39, 70_reset_and_hazards.md
R230). -/

namespace Sys2Proof.Machine

/-- PSTATE (R21). -/
inductive PState where
  | uninit
  | initializing
  | ready
  | faulted
  deriving DecidableEq, Repr

/-- The result codes (60_exceptions.md R200); codes 7 to 15 are never produced and have no name here. -/
inductive ResultCode where
  | ok
  | transportError
  | protocolFault
  | addressResolutionError
  | notReady
  | illegalOp
  | badOperand
  deriving DecidableEq, Repr

/-- The kind of a plan item (40_protocol_primitives.md R120). -/
inductive Kind where
  /-- enable-high write of a strobe -/
  | enh
  /-- enable-low write of a strobe -/
  | enl
  /-- backlight-only write -/
  | blw
  /-- raw transport write -/
  | raww
  /-- raw transport read -/
  | rawr
  deriving DecidableEq, Repr

/-- A plan item (R120): `bytes` are the bytes written (for a read, the bytes sent before it), `gap` is in µs, `done` is
the pair `(b, rs)` of the full byte this item completes. -/
structure Item where
  bytes : List Byte
  gap : Nat
  kind : Kind
  done : Option (Byte × Bool)
  deriving DecidableEq, Repr

/-- How many bytes a read asks for (43_transport.md R186 to R188). -/
inductive ReadLen where
  | bytes (n : Nat)
  | counted
  deriving DecidableEq, Repr

/-- What a bus transaction does (00_scope.md R11). -/
inductive BusOp where
  | write (bytes : List Byte)
  | read (sent : List Byte) (len : ReadLen)
  deriving DecidableEq, Repr

/-- How a transaction of the trace ended; `cut`: a reset cut it off (R230). -/
inductive TxResult where
  | ok
  | fail
  | cut
  deriving DecidableEq, Repr

/-- An element of the trace (00_scope.md R14, 20_memory.md R51): bus, address, operation, gap, result. -/
structure Tx where
  bus : BitVec 1
  addr : BusAddr
  op : BusOp
  gap : Nat
  result : TxResult
  deriving DecidableEq, Repr

/-- A response (30_encoding.md R91). -/
structure Response where
  code : ResultCode
  bytes : List Byte
  deriving DecidableEq, Repr

/-- A memory of `w`-bit entries: strictly rising addresses, no entry for an address whose content is `unknown`
(20_memory.md R84). `Memory 8` is a list of Host.Cell. -/
abbrev Memory (w : Nat) := List (Nat × BitVec w)

/-- MODE of the reference display (R71). -/
inductive Mode where
  | unknown
  | four
  deriving DecidableEq, Repr

/-- PHASE of the reference display (R71): the half of a byte it expects next. -/
inductive Phase where
  | hi
  | lo
  deriving DecidableEq, Repr

/-- TGT of the reference display (R71): the memory its address counter points into. -/
inductive Target where
  | dd
  | cg
  deriving DecidableEq, Repr

/-- The reference display (R71). `none` is the spec's `unknown`. -/
structure Display where
  /-- Q, the expander's output latch -/
  q : Option Byte
  mode : Mode
  phase : Option Phase
  /-- HN, the pending high nibble -/
  hn : Option Nibble
  /-- HRS, its register-select -/
  hrs : Option Bool
  ddram : Memory 8
  /-- what the display was told of CGRAM; known only where `cgKnown` (Machine/Display.lean, `glyphEntry`) -/
  cgram : Memory 5
  /-- CGRAM is known: a complete LDGLYPH came after power-up and after the last failed write (R84;
  notes/assumptions/19.md) -/
  cgKnown : Bool
  /-- AC -/
  ac : Option (BitVec 7)
  /-- TGT -/
  tgt : Option Target
  /-- ID, increment -/
  incr : Option Bool
  /-- SH, display shift -/
  shift : Option Bool
  /-- N, two-line mode -/
  twoLine : Option Bool
  /-- DON, display on -/
  don : Option Bool
  deriving DecidableEq, Repr

/-- Everything `unknown`: the display at power-up, after a failed write or a request cut off by reset (R84, R230). -/
def Display.allUnknown : Display :=
  { q := none, mode := .unknown, phase := none, hn := none, hrs := none, ddram := [], cgram := [], cgKnown := false,
    ac := none, tgt := none, incr := none, shift := none, twoLine := none, don := none }

/-- The whole machine. INVENTORY.md lists each field with its rule. -/
structure State where
  /-- the parameters fixed at reset (00_scope.md R6) -/
  cfg : Config
  /-- PSTATE (R21) -/
  pstate : PState
  /-- BL (R22) -/
  bl : Bool
  /-- EM_ID (R23) -/
  emId : Bool
  /-- EM_S (R23) -/
  emS : Bool
  /-- FS_DL (R24) -/
  fsDl : Bool
  /-- FS_N (R24) -/
  fsN : Bool
  /-- FS_F (R24) -/
  fsF : Bool
  /-- AC_UNK (R25) -/
  acUnk : Bool
  /-- DESYNC (R26) -/
  desync : Bool
  /-- CG_VALID (R28) -/
  cgValid : Bool
  /-- LAST_ERR (R29) -/
  lastErr : ResultCode
  /-- ADDR (R30) -/
  addr : BusAddr
  /-- ADDR_OK (R30) -/
  addrOk : Bool
  /-- BUS_SEL (R31) -/
  busSel : BitVec 1
  /-- BUSY (R27) -/
  busy : Bool
  /-- PLAN (R27) -/
  plan : List Item
  /-- SEQ (R27) -/
  seq : BitVec 11
  /-- TMR, µs (R27, 60_exceptions.md R215) -/
  tmr : Nat
  /-- REQ; `none` is empty (R33, R39) -/
  req : Option Request
  /-- the transaction on the bus, if any (43_transport.md R193, 70_reset_and_hazards.md R230) -/
  flight : Option Item
  /-- a transaction of this request failed; the gap is waited out before the response (41_sequencer.md R141) -/
  aborting : Bool
  /-- the bytes read for the response (R186 to R188) -/
  rdata : List Byte
  /-- INPUT: reset (60_exceptions.md R213) -/
  rst : Bool
  /-- INPUT: requests delivered whole and not yet taken, oldest first (41_sequencer.md R140) -/
  port : List Request
  /-- INPUT: bytes waiting on a byte-wide port (30_encoding.md R103) -/
  rx : List Byte
  /-- INPUT: the environment's coming answers (00_scope.md R11) -/
  answers : List BusAnswer
  /-- INPUT: the prober's coming answers (R232) -/
  probes : List ProbeAnswer
  /-- the model's own counter: indexes the free values (notes/assumptions/1.md) -/
  draws : Nat
  /-- OUTPUT: the transactions that ended, oldest first (00_scope.md R14; notes/assumptions/20.md) -/
  trace : List Tx
  /-- OUTPUT: the responses given, oldest first (30_encoding.md R91) -/
  responses : List Response
  /-- the environment's reference display (20_memory.md R71) -/
  display : Display
  deriving DecidableEq, Repr

/-- Why the machine stops. -/
inductive Fault where
  /-- Raised by the sequencer (Machine/Sequencer.lean) in a state with BUSY = 1 and REQ empty, which no run reaches
  (R27: a busy sequencer holds its request). Safe. -/
  | noRequest
  deriving DecidableEq, Repr

/-- Why an instruction or a machine has no meaning. -/
inductive Refusal where
  /-- Raised by exec for an instruction with no meaning yet. Safe. No arm of exec answers it. -/
  | notModelled (mnemonic : String)
  /-- Raised by step for a configuration that R234 says a model must not run. Safe. -/
  | illegalConfig
  deriving DecidableEq, Repr

/-- Reset with the configuration `c` and the prober's answer `p` (R39, R230 to R233), ports and outputs empty, the
display just powered up. -/
def State.resetWith (c : Config) (p : ProbeAnswer) : State :=
  { cfg := c
    pstate := .uninit
    bl := c.blInit
    emId := false
    emS := false
    fsDl := false
    fsN := false
    fsF := false
    acUnk := true
    desync := true
    cgValid := false
    lastErr := .ok
    addr := resolvedAddr c p
    addrOk := resolvedOk c p
    busSel := selectBus c
    busy := false
    plan := []
    seq := 0
    tmr := c.tPor
    req := none
    flight := none
    aborting := false
    rdata := []
    rst := false
    port := []
    rx := []
    answers := []
    probes := []
    draws := 1
    trace := []
    responses := []
    display := Display.allUnknown }

/-- The machine right after reset: the R6 defaults, HW_REV and the prober's answer free. -/
def State.reset : State := State.resetWith defaultConfig (Config.freeProbe 0)

end Sys2Proof.Machine
end

