-- ==== Sys2Proof/Machine/Ops.lean ====
section
/-! DEFINITION. The named operations over the memories of the reference display and over the block's registers, and the
one way a request ends, with or without an error (`endRequest`; 60_exceptions.md R200 to R212). -/

namespace Sys2Proof.Machine

/-- Read one entry; `none` is `unknown` (20_memory.md R84). -/
def memRead {w : Nat} : Memory w → Nat → Option (BitVec w)
  | [], _ => none
  | (k, v) :: t, a => if k = a then some v else memRead t a

/-- Write one entry, keeping the addresses strictly rising. -/
def memWrite {w : Nat} : Memory w → Nat → BitVec w → Memory w
  | [], a, v => [(a, v)]
  | (k, x) :: t, a, v =>
    if a < k then (a, v) :: (k, x) :: t
    else if a = k then (a, v) :: t
    else (k, x) :: memWrite t a v

/-- Every address below `size` holds `v`. -/
def memFill {w : Nat} (size : Nat) (v : BitVec w) : Memory w := (List.range size).map (fun a => (a, v))

/-- The canonical form: addresses strictly rising and below `size`. Every listed entry is known, so none equals what an
unlisted address reads as. -/
def Memory.wf {w : Nat} (size : Nat) : Memory w → Bool
  | [] => true
  | (k, _) :: t => decide (k < size) && t.all (fun c => decide (k < c.1)) && Memory.wf size t

/-- THE END OF A REQUEST, whatever its code (30_encoding.md R91, 41_sequencer.md R140, R141): LAST_ERR and the response
carry the code, and BUSY falls. The saved state an error leaves is LAST_ERR alone (60_exceptions.md R209). -/
def endRequest (code : ResultCode) (bytes : List Byte) (s : State) : State :=
  { s with
    lastErr := code
    responses := s.responses ++ [{ code := code, bytes := bytes }]
    busy := false
    aborting := false }

/-- Raising an error (00_scope.md R12): the request ends at once and its response has no bytes (R91). -/
def raiseError (code : ResultCode) (s : State) : State := endRequest code [] s

/-- A bus answer: the scripted one, or a free value where the script is exhausted (notes/assumptions/1.md). -/
def nextAnswer (s : State) : BusAnswer :=
  match s.answers with
  | a :: _ => a
  | [] => Config.freeAnswer s.draws

/-- The answer has been used. -/
def dropAnswer (s : State) : State := { s with answers := s.answers.tail, draws := s.draws + 1 }

/-- The prober's answer: the scripted one, or a free value. -/
def nextProbe (s : State) : ProbeAnswer :=
  match s.probes with
  | p :: _ => p
  | [] => Config.freeProbe s.draws

end Sys2Proof.Machine
end

