-- ==== Sys2Proof/Machine/Operands.lean ====
section
/-! DEFINITION. Every operand form: the legal operands (30_encoding.md R101, R102), the nibble split (R98), the expander
byte (R92, R93), the CGRAM command and row (R97), and the extended string (R99, 41_sequencer.md R148). -/

namespace Sys2Proof.Machine

/-- The payload of XWBLK: L, then exactly L bytes, L at most BLOCK_MAX (R101). -/
def blockPayloadLegal (c : Config) : List Byte → Bool
  | [] => false
  | l :: data => data.length == l.toNat && decide (l.toNat ≤ c.blockMax)

/-- `LegalOperands` of 60_exceptions.md R208: the legal set of R101, with the payload length of R103. -/
def legalOperands (c : Config) : Instr → Bool
  | .init a b p => a == 0 && b == 0 && p.isEmpty
  | .wcmd a _ p => a == 0 && p.isEmpty
  | .wdata a _ p => a == 0 && p.isEmpty
  | .nibble a b p => a.extractLsb' 1 2 == 0 && b.extractLsb' 4 4 == 0 && p.isEmpty
  | .setline a b p => decide (1 ≤ a.toNat) && decide (a.toNat ≤ c.numLines) && b == 0 && p.isEmpty
  | .wline a b p => decide (a.toNat ≤ c.numLines) && p.length == b.toNat
  | .wext a b p => decide (a.toNat ≤ c.numLines) && p.length == b.toNat
  | .bkl a b p => decide (a.toNat ≤ 2) && b == 0 && p.isEmpty
  | .ldglyph a b p => a == 0 && b == 0 && p.length == 64
  | .rdstat a b p => a == 0 && b == 0 && p.isEmpty
  | .xwb a _ p => a == 0 && p.isEmpty
  | .xwr a _ p => a == 0 && p.length == 1
  | .xwblk a _ p => a == 0 && blockPayloadLegal c p
  | .xrb a b p => a == 0 && b == 0 && p.isEmpty
  | .xrr a _ p => a == 0 && p.isEmpty
  | .xrblk a _ p => a == 0 && p.isEmpty
  | .reserved _ _ _ => false

/-- The high nibble `b[7:4]` (R98). -/
def highNibble (b : Byte) : Nibble := b.extractLsb' 4 4

/-- The low nibble `b[3:0]` (R98). -/
def lowNibble (b : Byte) : Nibble := b.extractLsb' 0 4

/-- A one-bit value placed at bit `i` of an expander byte. -/
def bitAt (i : Nat) (v : Bool) : Byte := if v then 1#8 <<< i else 0#8

/-- `ExpByte(d, rs, en, bl)` (R93): the data nibble in bits 7:4, bit P_RW clear. -/
def expByte (c : Config) (d : Nibble) (rs en bl : Bool) : Byte :=
  (d.setWidth 8 <<< 4) ||| bitAt c.pRs rs ||| bitAt c.pEn en ||| bitAt c.pBl bl

/-- `cg_cmd(s) = 0x40 + 8*s` (R97). -/
def cgCommand (slot : Nat) : Byte := 0x40#8 + BitVec.ofNat 8 (8 * slot)

/-- `row(s, r) = payload[8s + r] & 0x1F` (R97). -/
def glyphRow (p : List Byte) (slot row : Nat) : Byte := p.getD (8 * slot + row) 0 &&& 0x1F#8

/-- `hexval` (R99). -/
def hexval (c : Byte) : Option Nat :=
  let n := c.toNat
  if 0x30 ≤ n ∧ n ≤ 0x39 then some (n - 0x30)
  else if 0x41 ≤ n ∧ n ≤ 0x46 then some (n - 0x41 + 10)
  else if 0x61 ≤ n ∧ n ≤ 0x66 then some (n - 0x61 + 10)
  else none

/-- The value of an escape token at the head of the list, if one stands there (R148, R99). -/
def escapeToken (upperX : Bool) : List Byte → Option Byte
  | c0 :: c1 :: c2 :: c3 :: c4 :: c5 :: _ =>
    if c0 = 0x7B ∧ c1 = 0x30 ∧ (c2 = 0x78 ∨ (upperX = true ∧ c2 = 0x58)) ∧ c5 = 0x7D then
      match hexval c3, hexval c4 with
      | some h, some l => some (BitVec.ofNat 8 (16 * h + l))
      | _, _ => none
    else none
  | _ => none

/-- The scan of R148; `skip` counts the bytes still to pass over of a token already answered. -/
def parseFrom (upperX : Bool) : Nat → List Byte → List Byte
  | _, [] => []
  | skip + 1, _ :: t => parseFrom upperX skip t
  | 0, c :: t =>
    match escapeToken upperX (c :: t) with
    | some v => v :: parseFrom upperX 5 t
    | none => c :: parseFrom upperX 0 t

/-- `Parse(p)` (R148). -/
def parseText (upperX : Bool) (p : List Byte) : List Byte := parseFrom upperX 0 p

/-- The new backlight flag of BKL's mode operand: 0 off, 1 on, 2 toggle (41_sequencer.md R150). -/
def backlightMode (a : BitVec 3) (bl : Bool) : Bool :=
  if a = 0 then false else if a = 1 then true else !bl

end Sys2Proof.Machine
end

