-- ==== Sys2Proof/Machine/Flags.lean ====
section
/-! DEFINITION. Every status computation: the status word (10_state.md R34, R35), the command snoop
(40_protocol_primitives.md R123), and what a failed strobe write sets (R124). -/

namespace Sys2Proof.Machine

/-- PSTATE's two bits (10_state.md R21). -/
def pstateBits : PState → BitVec 2
  | .uninit => 0
  | .initializing => 1
  | .ready => 2
  | .faulted => 3

/-- A result code's four bits (60_exceptions.md R200). -/
def resultBits : ResultCode → BitVec 4
  | .ok => 0
  | .transportError => 1
  | .protocolFault => 2
  | .addressResolutionError => 3
  | .notReady => 4
  | .illegalOp => 5
  | .badOperand => 6

/-- The status word (R35), driven at all times (R34). -/
def statusWord (s : State) : BitVec 32 :=
  0#7 ++ BitVec.ofBool s.busy ++ s.busSel ++ s.addr ++ BitVec.ofBool s.desync ++ BitVec.ofBool s.addrOk
    ++ BitVec.ofBool s.acUnk ++ BitVec.ofBool s.cgValid ++ resultBits s.lastErr ++ BitVec.ofBool s.fsF
    ++ BitVec.ofBool s.fsN ++ BitVec.ofBool s.fsDl ++ BitVec.ofBool s.emS ++ BitVec.ofBool s.emId
    ++ BitVec.ofBool s.bl ++ pstateBits s.pstate

/-- The status word as RDSTAT returns it: least significant byte first (20_memory.md R58). -/
def statusBytes (s : State) : List Byte :=
  [(statusWord s).extractLsb' 0 8, (statusWord s).extractLsb' 8 8, (statusWord s).extractLsb' 16 8,
    (statusWord s).extractLsb' 24 8]

/-- `Snoop(b)` (R123): the shadow of the display's settings after a command byte `b` completed; first case that
matches. -/
def snoop (b : Byte) (s : State) : State :=
  if b.getLsbD 7 then { s with acUnk := false }
  else if b.getLsbD 6 then { s with acUnk := true }
  else if b.getLsbD 5 then
    { s with fsDl := b.getLsbD 4, fsN := b.getLsbD 3, fsF := b.getLsbD 2, desync := s.desync || b.getLsbD 4 }
  else if b.getLsbD 4 then s
  else if b.getLsbD 3 then s
  else if b.getLsbD 2 then { s with emId := b.getLsbD 1, emS := b.getLsbD 0 }
  else if b.getLsbD 1 then { s with acUnk := false }
  else if b.getLsbD 0 then { s with acUnk := false, emId := true }
  else s

/-- The snoop an item's `done` mark asks for: only a command byte is snooped (R123). -/
def snoopItem (it : Item) (s : State) : State :=
  match it.done with
  | some (b, false) => snoop b s
  | _ => s

/-- A failed write that belongs to a strobe (R124); a failed backlight write or raw transaction sets neither flag
(R150, 43_transport.md R190). -/
def strobeFailed (k : Kind) (s : State) : State :=
  match k with
  | .enh => { s with desync := true, acUnk := true }
  | .enl => { s with desync := true, acUnk := true }
  | .blw => s
  | .raww => s
  | .rawr => s

end Sys2Proof.Machine
end

