-- ==== Sys2Proof/Machine/Plans.lean ====
section
/-! DEFINITION. The plans (40_protocol_primitives.md R120 to R122, 41_sequencer.md R143 to R150, 42_cgram.md R171,
43_transport.md R183 to R188): the lists of bus transactions, as functions of the configuration, the backlight flag and
the operands only (20_memory.md R69). -/

namespace Sys2Proof.Machine

/-- `Nib(d, rs, extra)` (R121), its last item completing the full byte `done`, if any. -/
def nibItems (c : Config) (bl : Bool) (d : Nibble) (rs : Bool) (extra : Nat) (done : Option (Byte × Bool)) : List Item :=
  [{ bytes := [expByte c d rs true bl], gap := c.tSettle + c.tEnHigh, kind := .enh, done := none },
    { bytes := [expByte c d rs false bl], gap := c.tSettle + c.tEnLow + extra, kind := .enl, done := done }]

/-- `long(b, rs)` (R122): the extra wait of clear display and return home. -/
def longWait (c : Config) (b : Byte) (rs : Bool) : Nat :=
  if rs = false ∧ (b = 0x01 ∨ b &&& 0xFE = 0x02) then c.tLongCmd else 0

/-- `Byte(b, rs)` (R122), with `extra` added to the gap of its last item. -/
def byteItemsWith (c : Config) (bl : Bool) (b : Byte) (rs : Bool) (extra : Nat) : List Item :=
  nibItems c bl (highNibble b) rs 0 none ++ nibItems c bl (lowNibble b) rs (longWait c b rs + extra) (some (b, rs))

/-- `Byte(b, rs)` (R122). -/
def byteItems (c : Config) (bl : Bool) (b : Byte) (rs : Bool) : List Item := byteItemsWith c bl b rs 0

/-- Data bytes, one full byte each, in order (R147). -/
def textItems (c : Config) (bl : Bool) : List Byte → List Item
  | [] => []
  | x :: t => byteItems c bl x true ++ textItems c bl t

/-- `k ≠ 0 ? Byte(LINE_BASE[k], 0) : []` (R147). -/
def lineItems (c : Config) (bl : Bool) (k : BitVec 3) : List Item :=
  match lineBaseAt c k.toNat with
  | some base => byteItems c bl base false
  | none => []

/-- INIT's plan (R143): the four sync nibbles, the four command bytes, T_INIT added to the last gap. -/
def initPlan (c : Config) (bl : Bool) : List Item :=
  nibItems c bl 0x3 false c.tSync1 none ++ nibItems c bl 0x3 false 0 none ++ nibItems c bl 0x3 false 0 none
    ++ nibItems c bl 0x2 false 0 none
    ++ byteItems c bl 0x28 false ++ byteItems c bl 0x0C false ++ byteItems c bl 0x01 false
    ++ byteItemsWith c bl 0x06 false c.tInit

/-- BKL's one-item plan (R150): the backlight bit alone. -/
def backlightPlan (c : Config) (bl : Bool) : List Item :=
  [{ bytes := [bitAt c.pBl bl], gap := c.tSettle, kind := .blw, done := none }]

/-- The rows `row .. 7` of a slot, one data byte each (R171). -/
def glyphRows (c : Config) (bl : Bool) (p : List Byte) (slot : Nat) : List Item :=
  textItems c bl ((List.range 8).map (glyphRow p slot))

/-- One slot: its set-CGRAM command, then its 8 rows (R171). -/
def slotItems (c : Config) (bl : Bool) (p : List Byte) (slot : Nat) : List Item :=
  byteItems c bl (cgCommand slot) false ++ glyphRows c bl p slot

/-- LDGLYPH's plan (R171): slots 0 to 7 in order. -/
def glyphPlan (c : Config) (bl : Bool) (p : List Byte) : List Item :=
  (List.range 8).flatMap (slotItems c bl p)

/-- A raw write of the given bytes (R183 to R185). -/
def rawWrite (c : Config) (bytes : List Byte) : List Item :=
  [{ bytes := bytes, gap := c.tSettle, kind := .raww, done := none }]

/-- A raw read, after sending the given bytes; reads have no settle delay (R181, R186 to R188). -/
def rawRead (sent : List Byte) : List Item :=
  [{ bytes := sent, gap := 0, kind := .rawr, done := none }]

/-- The bytes of a block write (R185): the register, the count where it goes on the wire, the data. -/
def blockBytes (c : Config) (reg : Byte) (p : List Byte) : List Byte :=
  reg :: (if c.blockWriteCountOnWire then p else p.tail)

end Sys2Proof.Machine
end

