-- ==== Sys2Proof/Machine/Display.lean ====
section
/-! DEFINITION. The environment's reference display (20_memory.md R71 to R84): how it answers the block's trace. Nothing in
the block reads it (R71); `none` and the empty memory are the spec's `unknown`, and what depends on an unknown is unknown. -/

namespace Sys2Proof.Machine

/-- The CGRAM entry at `a`. What the display was told of it counts only once a complete LDGLYPH has made CGRAM known (R84,
42_cgram.md R173, 93_implementation_defined.md U1; notes/assumptions/19.md). -/
def glyphEntry (d : Display) (a : Nat) : Option (BitVec 5) := if d.cgKnown then memRead d.cgram a else none

/-- Everything but the latch `unknown`: an unknown nibble, byte or mode was strobed (R75; notes/assumptions/8.md). No write
failed, so what is told of CGRAM after this counts as before (R84; notes/assumptions/19.md). -/
def displayScramble (d : Display) : Display := { Display.allUnknown with q := d.q, cgKnown := d.cgKnown }

/-- The two addresses lie in one valid DDRAM range (R82): 0x00..0x27 or 0x40..0x67 with two lines, else 0x00..0x4F. -/
def sameRange (twoLine : Bool) (a a' : BitVec 7) : Bool :=
  if twoLine then
    decide (a.toNat ≤ 0x27 ∧ a'.toNat ≤ 0x27)
      || decide (0x40 ≤ a.toNat ∧ a.toNat ≤ 0x67 ∧ 0x40 ≤ a'.toNat ∧ a'.toNat ≤ 0x67)
  else
    decide (a.toNat ≤ 0x4F ∧ a'.toNat ≤ 0x4F)

/-- AC after a DDRAM data byte (R82). -/
def advanceDd (twoLine incr : Option Bool) (a : BitVec 7) : Option (BitVec 7) :=
  match twoLine, incr with
  | some n, some up =>
    let a' := if up then a + 1 else a - 1
    if sameRange n a a' then some a' else none
  | _, _ => none

/-- AC after a CGRAM data byte (R83): `AC[5:0]` steps modulo 64. -/
def advanceCg (incr : Option Bool) (a : BitVec 7) : Option (BitVec 7) :=
  match incr with
  | some up =>
    let low : BitVec 6 := a.extractLsb' 0 6
    some (a.extractLsb' 6 1 ++ (if up then low + 1 else low - 1))
  | none => none

/-- A data byte (rs = 1): R82 with TGT = dd, R83 with TGT = cg. -/
def displayData (b : Byte) (d : Display) : Display :=
  match d.tgt with
  | some .dd =>
    match d.ac with
    | some a => { d with ddram := memWrite d.ddram a.toNat b, ac := advanceDd d.twoLine d.incr a }
    | none => { d with ddram := [] }
  | some .cg =>
    match d.ac with
    | some a =>
      { d with
        cgram := memWrite d.cgram (a.extractLsb' 0 6 : BitVec 6).toNat (b.extractLsb' 0 5)
        ac := advanceCg d.incr a }
    | none => { d with cgram := [] }
  | none => { d with ddram := [], cgram := [], ac := none }

/-- A command byte (rs = 0): R76 to R81; 0x00 is none of them and does nothing (notes/assumptions/11.md). -/
def displayCommand (b : Byte) (d : Display) : Display :=
  if b.getLsbD 7 then { d with ac := some (b.extractLsb' 0 7), tgt := some .dd }
  else if b.getLsbD 6 then { d with ac := some ((b.extractLsb' 0 6 : BitVec 6).setWidth 7), tgt := some .cg }
  else if b.getLsbD 5 then
    { d with twoLine := some (b.getLsbD 3), mode := if b.getLsbD 4 then .unknown else d.mode }
  else if b.getLsbD 4 then { d with ac := if b.getLsbD 3 then d.ac else none }
  else if b.getLsbD 3 then { d with don := some (b.getLsbD 2) }
  else if b.getLsbD 2 then { d with incr := some (b.getLsbD 1), shift := some (b.getLsbD 0) }
  else if b.getLsbD 1 then { d with ac := some 0, tgt := some .dd }
  else if b.getLsbD 0 then
    { d with ddram := memFill 128 0x20#8, ac := some 0, tgt := some .dd, incr := some true }
  else d

/-- Executing an assembled byte with its select (R75). -/
def displayByte (rs : Bool) (b : Byte) (d : Display) : Display :=
  if rs then displayData b d else displayCommand b d

/-- A strobe of the latch value `v` (R73, R75). `followed`: the display follows the strobes of this request
(`followsStrobe`); any other strobe leaves it `unknown` (93_implementation_defined.md U23; notes/assumptions/8.md). -/
def displayStrobe (c : Config) (followed : Bool) (v : Byte) (d : Display) : Display :=
  if followed = false ∨ v.getLsbD c.pRw = true then displayScramble d
  else
    match d.mode, d.phase with
    | .four, some .hi =>
      { d with hn := some (highNibble v), hrs := some (v.getLsbD c.pRs), phase := some .lo }
    | .four, some .lo =>
      match d.hn, d.hrs with
      | some h, some rs =>
        if v.getLsbD c.pRs = rs then { displayByte rs (h ++ highNibble v) d with phase := some .hi }
        else displayScramble d
      | _, _ => displayScramble d
    | _, _ => displayScramble d

/-- One successful byte written to the expander (R72), strobing on a fall of its bit P_EN (R73); from an `unknown` latch a
low P_EN may or may not be a fall. -/
def displayLatch (c : Config) (followed : Bool) (d : Display) (v : Byte) : Display :=
  let d' := { d with q := some v }
  if v.getLsbD c.pEn then d'
  else
    match d.q with
    | none => displayScramble d'
    | some old => if old.getLsbD c.pEn then displayStrobe c followed v d' else d'

/-- One successful write of INIT: how the display gets to its known point is not modelled (R74); CGRAM stays as it was
(notes/assumptions/12.md). -/
def displayInitWrite (d : Display) (v : Byte) : Display :=
  { Display.allUnknown with q := some v, cgram := d.cgram, cgKnown := d.cgKnown }

/-- A completed INIT (R74). -/
def displayInitDone (d : Display) : Display :=
  { d with
    mode := .four
    phase := some .hi
    twoLine := some true
    don := some true
    incr := some true
    shift := some false
    tgt := some .dd
    ac := some 0
    ddram := memFill 128 0x20#8 }

/-- A completed LDGLYPH makes CGRAM known (R84), where the display took its bytes: one that had lost the 4-bit mode or the
pairing of the nibbles before did not (R75; notes/assumptions/19.md). -/
def displayLoadDone (d : Display) : Display :=
  match d.mode, d.phase with
  | .four, some .hi => { d with cgKnown := true }
  | .four, some .lo => d
  | .four, none => d
  | .unknown, _ => d

/-- The backlight is lit exactly when `Q[P_BL] = 1` (R72). -/
def displayLit (c : Config) (d : Display) : Option Bool := d.q.map (fun v => v.getLsbD c.pBl)

/-- Whether the display follows the strobes that this request's writes make, by R75. It does not follow those of a lone
NIBBLE and of raw writes, after which it is `unknown` (93_implementation_defined.md U23; notes/assumptions/8.md), nor those
of INIT, which R74 sums up. A BKL strobes where a raw write left the enable line up (R73). -/
def followsStrobe : Instr → Bool
  | .wcmd _ _ _ => true
  | .wdata _ _ _ => true
  | .setline _ _ _ => true
  | .wline _ _ _ => true
  | .wext _ _ _ => true
  | .bkl _ _ _ => true
  | .ldglyph _ _ _ => true
  | .init _ _ _ => false
  | .nibble _ _ _ => false
  | .rdstat _ _ _ => false
  | .xwb _ _ _ => false
  | .xwr _ _ _ => false
  | .xwblk _ _ _ => false
  | .xrb _ _ _ => false
  | .xrr _ _ _ => false
  | .xrblk _ _ _ => false
  | .reserved _ _ _ => false

/-- Whether the request is INIT. -/
def isInit : Instr → Bool
  | .init _ _ _ => true
  | .wcmd _ _ _ => false
  | .wdata _ _ _ => false
  | .nibble _ _ _ => false
  | .setline _ _ _ => false
  | .wline _ _ _ => false
  | .wext _ _ _ => false
  | .bkl _ _ _ => false
  | .ldglyph _ _ _ => false
  | .rdstat _ _ _ => false
  | .xwb _ _ _ => false
  | .xwr _ _ _ => false
  | .xwblk _ _ _ => false
  | .xrb _ _ _ => false
  | .xrr _ _ _ => false
  | .xrblk _ _ _ => false
  | .reserved _ _ _ => false

/-- The display after the item `it` of the request `i` completed. A write's bytes are latched in turn (43_transport.md
R184). A read that first sends a register byte leaves the display `unknown` (20_memory.md R52, R62;
notes/assumptions/9.md). -/
def displayDone (c : Config) (i : Instr) (it : Item) (d : Display) : Display :=
  match it.kind with
  | .rawr => if it.bytes.isEmpty then d else { Display.allUnknown with cgKnown := d.cgKnown }
  | .enh => if isInit i then it.bytes.foldl displayInitWrite d else it.bytes.foldl (displayLatch c (followsStrobe i)) d
  | .enl => if isInit i then it.bytes.foldl displayInitWrite d else it.bytes.foldl (displayLatch c (followsStrobe i)) d
  | .blw => it.bytes.foldl (displayLatch c (followsStrobe i)) d
  | .raww => it.bytes.foldl (displayLatch c (followsStrobe i)) d

/-- The display after the item `it` failed: a failed write leaves everything `unknown`, the latch until the next write (R72,
U11), MODE, PHASE, DDRAM and AC until the next complete INIT, CGRAM until the next complete LDGLYPH (R84). A failed read
that sends a byte counts as a failed write; one that sends nothing leaves the display as it was
(notes/assumptions/9.md). -/
def displayFailed (it : Item) (d : Display) : Display :=
  match it.kind with
  | .rawr => if it.bytes.isEmpty then d else Display.allUnknown
  | .enh => Display.allUnknown
  | .enl => Display.allUnknown
  | .blw => Display.allUnknown
  | .raww => Display.allUnknown

end Sys2Proof.Machine
end

