-- ==== Sys2Proof/Machine/Accept.lean ====
section
/-! DEFINITION. Taking a request (41_sequencer.md R140) and the acceptance check (60_exceptions.md R208). -/

namespace Sys2Proof.Machine

/-- The protocol requests, which need PSTATE = READY (60_exceptions.md R205). -/
def needsReady : Instr → Bool
  | .wcmd _ _ _ => true
  | .wdata _ _ _ => true
  | .nibble _ _ _ => true
  | .setline _ _ _ => true
  | .wline _ _ _ => true
  | .wext _ _ _ => true
  | .bkl _ _ _ => true
  | .ldglyph _ _ _ => true
  | .init _ _ _ => false
  | .rdstat _ _ _ => false
  | .xwb _ _ _ => false
  | .xwr _ _ _ => false
  | .xwblk _ _ _ => false
  | .xrb _ _ _ => false
  | .xrr _ _ _ => false
  | .xrblk _ _ _ => false
  | .reserved _ _ _ => false

/-- The requests that need an address: every one of the table but RDSTAT (60_exceptions.md R204). -/
def needsAddress : Instr → Bool
  | .rdstat _ _ _ => false
  | .reserved _ _ _ => false
  | .init _ _ _ => true
  | .wcmd _ _ _ => true
  | .wdata _ _ _ => true
  | .nibble _ _ _ => true
  | .setline _ _ _ => true
  | .wline _ _ _ => true
  | .wext _ _ _ => true
  | .bkl _ _ _ => true
  | .ldglyph _ _ _ => true
  | .xwb _ _ _ => true
  | .xwr _ _ _ => true
  | .xwblk _ _ _ => true
  | .xrb _ _ _ => true
  | .xrr _ _ _ => true
  | .xrblk _ _ _ => true

/-- OP is reserved (30_encoding.md R102). -/
def isReserved : Instr → Bool
  | .reserved _ _ _ => true
  | .init _ _ _ => false
  | .wcmd _ _ _ => false
  | .wdata _ _ _ => false
  | .nibble _ _ _ => false
  | .setline _ _ _ => false
  | .wline _ _ _ => false
  | .wext _ _ _ => false
  | .bkl _ _ _ => false
  | .ldglyph _ _ _ => false
  | .rdstat _ _ _ => false
  | .xwb _ _ _ => false
  | .xwr _ _ _ => false
  | .xwblk _ _ _ => false
  | .xrb _ _ _ => false
  | .xrr _ _ _ => false
  | .xrblk _ _ _ => false

/-- `Check(req, st)` (R208): the first condition that holds gives the code. -/
def acceptCheck (i : Instr) (s : State) : ResultCode :=
  if isReserved i then .illegalOp
  else if legalOperands s.cfg i = false then .badOperand
  else if needsAddress i = true ∧ s.addrOk = false then .addressResolutionError
  else if needsReady i = true ∧ s.pstate ≠ .ready then .notReady
  else .ok

/-- Taking the request `i` (R140): a failed check ends it with its code and nothing else; otherwise `pre` is its
PreEffects and `plan` its plan, built from the state after them. An empty plan responds at once (R142) with the bytes
`answer`. -/
def takeRequest (i : Instr) (pre : State → State) (plan : State → List Item) (answer : List Byte) (s : State) :
    Host.Outcome State Fault Refusal :=
  match acceptCheck i s with
  | .ok =>
    let s1 := pre { s with req := some (encodeRequest i), busy := true }
    let s2 := { s1 with plan := plan s1, seq := 0, rdata := [] }
    if s2.plan.isEmpty then .next (endRequest .ok answer s2) else .next s2
  | .transportError => .next (raiseError .transportError s)
  | .protocolFault => .next (raiseError .protocolFault s)
  | .addressResolutionError => .next (raiseError .addressResolutionError s)
  | .notReady => .next (raiseError .notReady s)
  | .illegalOp => .next (raiseError .illegalOp s)
  | .badOperand => .next (raiseError .badOperand s)

/-- No PreEffects. -/
def noPre (s : State) : State := s

end Sys2Proof.Machine
end

