-- ==== Sys2Proof/Machine/Cgram.lean ====
section
/-! DEFINITION. The CGRAM programmer (42_cgram.md): LDGLYPH. -/

namespace Sys2Proof.Machine

/-- LDGLYPH (R171): all 8 slots, 288 items. -/
def execLdglyph (a : BitVec 3) (b : Byte) (p : List Byte) (s : State) : Host.Outcome State Fault Refusal :=
  takeRequest (.ldglyph a b p) noPre (fun t => glyphPlan t.cfg t.bl p) [] s

end Sys2Proof.Machine
end

