-- ==== Sys2Proof/Machine/Primitives.lean ====
section
/-! DEFINITION. The requests that expose the primitives (40_protocol_primitives.md): WCMD, WDATA, NIBBLE. -/

namespace Sys2Proof.Machine

/-- WCMD (R125): `Byte(b, 0)`. -/
def execWcmd (a : BitVec 3) (b : Byte) (p : List Byte) (s : State) : Host.Outcome State Fault Refusal :=
  takeRequest (.wcmd a b p) noPre (fun t => byteItems t.cfg t.bl b false) [] s

/-- WDATA (R126): `Byte(b, 1)`. -/
def execWdata (a : BitVec 3) (b : Byte) (p : List Byte) (s : State) : Host.Outcome State Fault Refusal :=
  takeRequest (.wdata a b p) noPre (fun t => byteItems t.cfg t.bl b true) [] s

/-- NIBBLE (R127): DESYNC is set when the plan starts, whatever the outcome; `Nib(B[3:0], A[0], 0)`. -/
def execNibble (a : BitVec 3) (b : Byte) (p : List Byte) (s : State) : Host.Outcome State Fault Refusal :=
  takeRequest (.nibble a b p) (fun t => { t with desync := true })
    (fun t => nibItems t.cfg t.bl (lowNibble b) (a.getLsbD 0) 0 none) [] s

end Sys2Proof.Machine
end

