-- ==== Sys2Proof/Machine/Reserved.lean ====
section
/-! DEFINITION. The reserved OP range 0x10 to 0x1F (30_encoding.md R102, 60_exceptions.md R206). -/

namespace Sys2Proof.Machine

/-- A reserved OP raises IllegalOp and has no other effect (R206): its check never passes, so it has no plan. -/
def execReserved (op : BitVec 4) (a : BitVec 3) (b : Byte) (s : State) : Host.Outcome State Fault Refusal :=
  takeRequest (.reserved op a b) noPre (fun _ => []) [] s

end Sys2Proof.Machine
end

