-- ==== Sys2Proof/Machine/Sequences.lean ====
section
/-! DEFINITION. The sequencer's requests (41_sequencer.md): INIT, SETLINE, WLINE, WEXT, BKL, RDSTAT. -/

namespace Sys2Proof.Machine

/-- INIT (R143): PSTATE becomes INITIALIZING; 24 items. -/
def execInit (a : BitVec 3) (b : Byte) (p : List Byte) (s : State) : Host.Outcome State Fault Refusal :=
  takeRequest (.init a b p) (fun t => { t with pstate := .initializing }) (fun t => initPlan t.cfg t.bl) [] s

/-- SETLINE (R146): `Byte(LINE_BASE[A], 0)`. -/
def execSetline (a : BitVec 3) (b : Byte) (p : List Byte) (s : State) : Host.Outcome State Fault Refusal :=
  takeRequest (.setline a b p) noPre (fun t => lineItems t.cfg t.bl a) [] s

/-- WLINE (R147): the line's address where A is not 0, then the text. -/
def execWline (a : BitVec 3) (b : Byte) (p : List Byte) (s : State) : Host.Outcome State Fault Refusal :=
  takeRequest (.wline a b p) noPre (fun t => lineItems t.cfg t.bl a ++ textItems t.cfg t.bl p) [] s

/-- WEXT (R149): as WLINE, over `Parse(payload)`. -/
def execWext (a : BitVec 3) (b : Byte) (p : List Byte) (s : State) : Host.Outcome State Fault Refusal :=
  takeRequest (.wext a b p) noPre
    (fun t => lineItems t.cfg t.bl a ++ textItems t.cfg t.bl (parseText t.cfg.escAcceptUpperX p)) [] s

/-- BKL (R150): BL is stored first, then one write of the backlight bit alone. -/
def execBkl (a : BitVec 3) (b : Byte) (p : List Byte) (s : State) : Host.Outcome State Fault Refusal :=
  takeRequest (.bkl a b p) (fun t => { t with bl := backlightMode a t.bl }) (fun t => backlightPlan t.cfg t.bl) [] s

/-- RDSTAT (R151): no transaction; the status word as it stood before this request. -/
def execRdstat (a : BitVec 3) (b : Byte) (p : List Byte) (s : State) : Host.Outcome State Fault Refusal :=
  takeRequest (.rdstat a b p) noPre (fun _ => []) (statusBytes s) s

end Sys2Proof.Machine
end

