-- ==== Sys2Proof/Machine/Transport.lean ====
section
/-! DEFINITION. The raw transport requests (43_transport.md): XWB, XWR, XWBLK, XRB, XRR, XRBLK. Their bytes are sent as
given, with no backlight bit added (R191). -/

namespace Sys2Proof.Machine

/-- XWB (R183): one write of the byte B. -/
def execXwb (a : BitVec 3) (b : Byte) (p : List Byte) (s : State) : Host.Outcome State Fault Refusal :=
  takeRequest (.xwb a b p) noPre (fun t => rawWrite t.cfg [b]) [] s

/-- XWR (R184): one write of the register and the value. -/
def execXwr (a : BitVec 3) (b : Byte) (p : List Byte) (s : State) : Host.Outcome State Fault Refusal :=
  takeRequest (.xwr a b p) noPre (fun t => rawWrite t.cfg (b :: p)) [] s

/-- XWBLK (R185): one write of the register, the count where it goes on the wire, and the data. -/
def execXwblk (a : BitVec 3) (b : Byte) (p : List Byte) (s : State) : Host.Outcome State Fault Refusal :=
  takeRequest (.xwblk a b p) noPre (fun t => rawWrite t.cfg (blockBytes t.cfg b p)) [] s

/-- XRB (R186): one read of one byte. -/
def execXrb (a : BitVec 3) (b : Byte) (p : List Byte) (s : State) : Host.Outcome State Fault Refusal :=
  takeRequest (.xrb a b p) noPre (fun _ => rawRead []) [] s

/-- XRR (R187): send the register, read one byte. -/
def execXrr (a : BitVec 3) (b : Byte) (p : List Byte) (s : State) : Host.Outcome State Fault Refusal :=
  takeRequest (.xrr a b p) noPre (fun _ => rawRead [b]) [] s

/-- XRBLK (R188): send the register, read a block. -/
def execXrblk (a : BitVec 3) (b : Byte) (p : List Byte) (s : State) : Host.Outcome State Fault Refusal :=
  takeRequest (.xrblk a b p) noPre (fun _ => rawRead [b]) [] s

end Sys2Proof.Machine
end

