-- ==== Sys2Proof/Machine/Dispatch.lean ====
section
/-! DEFINITION. exec: one arm per request of the opcode table. -/

namespace Sys2Proof.Machine

def exec (i : Instr) (s : State) : Host.Outcome State Fault Refusal :=
  match i with
  | .init a b p => Sys2Proof.Machine.execInit a b p s
  | .wcmd a b p => Sys2Proof.Machine.execWcmd a b p s
  | .wdata a b p => Sys2Proof.Machine.execWdata a b p s
  | .nibble a b p => Sys2Proof.Machine.execNibble a b p s
  | .setline a b p => Sys2Proof.Machine.execSetline a b p s
  | .wline a b p => Sys2Proof.Machine.execWline a b p s
  | .wext a b p => Sys2Proof.Machine.execWext a b p s
  | .bkl a b p => Sys2Proof.Machine.execBkl a b p s
  | .ldglyph a b p => Sys2Proof.Machine.execLdglyph a b p s
  | .rdstat a b p => Sys2Proof.Machine.execRdstat a b p s
  | .xwb a b p => Sys2Proof.Machine.execXwb a b p s
  | .xwr a b p => Sys2Proof.Machine.execXwr a b p s
  | .xwblk a b p => Sys2Proof.Machine.execXwblk a b p s
  | .xrb a b p => Sys2Proof.Machine.execXrb a b p s
  | .xrr a b p => Sys2Proof.Machine.execXrr a b p s
  | .xrblk a b p => Sys2Proof.Machine.execXrblk a b p s
  | .reserved op a b => Sys2Proof.Machine.execReserved op a b s

end Sys2Proof.Machine
end

