-- ==== Sys2Proof/Machine/Sequencer.lean ====
section
/-! DEFINITION. Running a plan (41_sequencer.md R141), one step at a time: wait out TMR, put the next item on the bus, take
the environment's answer, and at the end (or after a failure's gap) give the response. -/

namespace Sys2Proof.Machine

/-- `OnFail(req)` (R141), what it does at the failing item: LDGLYPH by 42_cgram.md R173. INIT keeps PSTATE = INITIALIZING to
its response (R145), so its R144 is `onAbort`. -/
def onFail (i : Instr) (s : State) : State :=
  match i with
  | .ldglyph _ _ _ => { s with cgValid := false }
  | .init _ _ _ => s
  | .wcmd _ _ _ => s
  | .wdata _ _ _ => s
  | .nibble _ _ _ => s
  | .setline _ _ _ => s
  | .wline _ _ _ => s
  | .wext _ _ _ => s
  | .bkl _ _ _ => s
  | .rdstat _ _ _ => s
  | .xwb _ _ _ => s
  | .xwr _ _ _ => s
  | .xwblk _ _ _ => s
  | .xrb _ _ _ => s
  | .xrr _ _ _ => s
  | .xrblk _ _ _ => s
  | .reserved _ _ _ => s

/-- `OnFail(req)` (R141), what it does as the error is raised: INIT becomes FAULTED (R144), INITIALIZING having held to the
response (R145, 92_eei_decisions.md D35; notes/assumptions/16.md). -/
def onAbort (i : Instr) (s : State) : State :=
  match i with
  | .init _ _ _ => { s with pstate := .faulted }
  | .wcmd _ _ _ => s
  | .wdata _ _ _ => s
  | .nibble _ _ _ => s
  | .setline _ _ _ => s
  | .wline _ _ _ => s
  | .wext _ _ _ => s
  | .bkl _ _ _ => s
  | .ldglyph _ _ _ => s
  | .rdstat _ _ _ => s
  | .xwb _ _ _ => s
  | .xwr _ _ _ => s
  | .xwblk _ _ _ => s
  | .xrb _ _ _ => s
  | .xrr _ _ _ => s
  | .xrblk _ _ _ => s
  | .reserved _ _ _ => s

/-- `OnDone(req)` (R141): INIT by R143 (and the display by 20_memory.md R74), LDGLYPH by R172 (and the display by R84). -/
def onDone (i : Instr) (s : State) : State :=
  match i with
  | .init _ _ _ => { s with pstate := .ready, desync := false, display := displayInitDone s.display }
  | .ldglyph _ _ _ => { s with cgValid := true, display := displayLoadDone s.display }
  | .wcmd _ _ _ => s
  | .wdata _ _ _ => s
  | .nibble _ _ _ => s
  | .setline _ _ _ => s
  | .wline _ _ _ => s
  | .wext _ _ _ => s
  | .bkl _ _ _ => s
  | .rdstat _ _ _ => s
  | .xwb _ _ _ => s
  | .xwr _ _ _ => s
  | .xwblk _ _ _ => s
  | .xrb _ _ _ => s
  | .xrr _ _ _ => s
  | .xrblk _ _ _ => s
  | .reserved _ _ _ => s

/-- The code a failed transaction raises: ProtocolFault for INIT, TransportError for any other request (R141). -/
def failCode (i : Instr) : ResultCode := if isInit i then .protocolFault else .transportError

/-- The request is XRBLK, OP 0x0F (30_encoding.md R100). -/
def isBlockRead (i : Instr) : Bool := instrOp i == 0x0F

/-- How many bytes the request's read asks for (43_transport.md R186 to R188). -/
def readLength (c : Config) (i : Instr) : ReadLen :=
  if isBlockRead i then
    match c.readBlockMode with
    | .counted => .counted
    | .fixed => .bytes c.readBlockLen
  else .bytes 1

/-- The bus operation of an item (00_scope.md R11). -/
def itemOp (c : Config) (i : Instr) (it : Item) : BusOp :=
  match it.kind with
  | .rawr => .read it.bytes (readLength c i)
  | .enh => .write it.bytes
  | .enl => .write it.bytes
  | .blw => .write it.bytes
  | .raww => .write it.bytes

/-- The trace element of an item (00_scope.md R14), on the selected bus to the resolved address (20_memory.md R51). -/
def itemTx (i : Instr) (it : Item) (s : State) (result : TxResult) : Tx :=
  { bus := s.busSel, addr := s.addr, op := itemOp s.cfg i it, gap := it.gap, result := result }

/-- Byte `j` of what the environment sent: the answer's, or a free value where the answer gives none
(notes/assumptions/1.md). -/
def drawByte (bs : List Byte) (n j : Nat) : Byte := bs.getD j (Config.freeByte n j)

/-- Bytes `start .. start+k-1` of what the environment sent. -/
def drawBytes (bs : List Byte) (n start k : Nat) : List Byte :=
  (List.range k).map (fun j => drawByte bs n (start + j))

/-- The response bytes of a completed read (R186 to R188); `none` where the transaction counts as failed: a device's count
above BLOCK_MAX (R188). A block read's response begins with the count. -/
def readResult (c : Config) (i : Instr) (bs : List Byte) (n : Nat) : Option (List Byte) :=
  match readLength c i with
  | .counted =>
    let count := drawByte bs n 0
    if count.toNat ≤ c.blockMax then some (count :: drawBytes bs n 1 count.toNat) else none
  | .bytes k =>
    if isBlockRead i then some (BitVec.ofNat 8 k :: drawBytes bs n 0 k) else some (drawBytes bs n 0 k)

/-- What a completed item leaves in `rdata`: a read's response bytes; a write leaves it as it was. -/
def itemData (s : State) (i : Instr) (it : Item) (bs : List Byte) : Option (List Byte) :=
  match it.kind with
  | .rawr => readResult s.cfg i bs s.draws
  | .enh => some s.rdata
  | .enl => some s.rdata
  | .blw => some s.rdata
  | .raww => some s.rdata

/-- An item ended `ok` (R141): TMR takes its gap, the snoop runs, SEQ advances by one. -/
def itemDone (i : Instr) (it : Item) (data : List Byte) (s : State) : State :=
  snoopItem it
    { dropAnswer s with
      flight := none
      tmr := it.gap
      seq := s.seq + 1
      rdata := data
      trace := s.trace ++ [itemTx i it s .ok]
      display := displayDone s.cfg i it s.display }

/-- An item ended `fail` (R141): TMR takes its gap, the failure effects of R124 and R173 happen, and the request is left only
to wait and raise. -/
def itemFailed (i : Instr) (it : Item) (s : State) : State :=
  onFail i (strobeFailed it.kind
    { dropAnswer s with
      flight := none
      tmr := it.gap
      aborting := true
      trace := s.trace ++ [itemTx i it s .fail]
      display := displayFailed it s.display })

/-- The environment answers the transaction on the bus. One that never completes leaves the block BUSY (R192). A transaction
joins the trace when it ends, here or cut off by a reset, so one that hangs is on the bus and not in the trace
(00_scope.md R14; notes/assumptions/20.md). -/
def answerItem (i : Instr) (it : Item) (s : State) : State :=
  match nextAnswer s with
  | .never => s
  | .fail => itemFailed i it s
  | .ok bs =>
    match itemData s i it bs with
    | some data => itemDone i it data s
    | none => itemFailed i it s

/-- A failed item's gap is over (R141): the request's error is raised. -/
def abortRequest (i : Instr) (s : State) : State := raiseError (failCode i) (onAbort i s)

/-- The plan ran to its end (R141): OnDone, then the response with code 0. -/
def finishRequest (i : Instr) (s : State) : State := endRequest .ok s.rdata (onDone i s)

/-- One step of `Run()` (R141). -/
def runStep (s : State) : Host.Outcome State Fault Refusal :=
  match s.req with
  | none => .fault .noRequest
  | some r =>
    let i := decodeRequest r
    match s.flight with
    | some it => .next (answerItem i it s)
    | none =>
      if s.tmr ≠ 0 then .next { s with tmr := 0 }
      else if s.aborting then .next (abortRequest i s)
      else
        match s.plan[s.seq.toNat]? with
        | some it => .next { s with flight := some it }
        | none => .next (finishRequest i s)

end Sys2Proof.Machine
end

