-- ==== Sys2Proof/Machine/Ports.lean ====
section
/-! DEFINITION. The block's ports: taking the next request (41_sequencer.md R140, 30_encoding.md R103), waiting for one, and
the reset input (70_reset_and_hazards.md R230). -/

namespace Sys2Proof.Machine

/-- The next request and the state with it taken off its port: a request delivered whole, in arrival order, else a
complete one from the byte-wide port (notes/assumptions/5.md). -/
def fetchRequest (s : State) : Option (Instr × State) :=
  match s.port with
  | r :: rest => some (decodeRequest r, { s with port := rest })
  | [] =>
    match decodeBytes s.rx with
    | .ok (i, rest) => some (i, { s with rx := rest })
    | .error _ => none

/-- No request to take: only time passes (60_exceptions.md R215). -/
def idleStep (s : State) : State := { s with tmr := 0 }

/-- The transaction a reset cuts off, as the trace shows it (R230). -/
def cutTrace (s : State) : List Tx :=
  match s.req, s.flight with
  | some r, some it => [itemTx (decodeRequest r) it s .cut]
  | _, _ => []

/-- Reset (R230): the block's fields take their reset values, the prober is asked again unless an explicit address is
configured (R231), a request in flight is abandoned with no response, the answer to a transaction cut off is lost with it,
and the display of an abandoned request is `unknown`. What the host still offers at the port stays offered (notes/assumptions/4.md). -/
def applyReset (s : State) : State :=
  { State.resetWith s.cfg (nextProbe s) with
    port := s.port
    rx := s.rx
    answers := if s.flight.isSome then s.answers.tail else s.answers
    probes := if s.cfg.explicitAddr.isSome then s.probes else s.probes.tail
    draws := s.draws + 1
    trace := s.trace ++ cutTrace s
    responses := s.responses
    display := if s.busy then Display.allUnknown else s.display }

/-- The request `r` offered first at the port of an idle block. -/
def offerRequest (r : Request) (s : State) : State :=
  { s with rst := false, busy := false, flight := none, aborting := false, port := r :: s.port }

end Sys2Proof.Machine
end

