-- ==== Sys2Proof/Machine/Step.lean ====
section
/-! DEFINITION. One step of the machine. A configuration R234 refuses is not run; reset comes first (60_exceptions.md R213);
a busy block runs its plan and holds the next request at the port (41_sequencer.md R140); an idle one takes it. -/

namespace Sys2Proof.Machine

def step (s : State) : Host.Outcome State Fault Refusal :=
  if configLegal s.cfg = false then .refused .illegalConfig
  else if s.rst then .next (applyReset s)
  else if s.busy then runStep s
  else
    match fetchRequest s with
    | some (i, t) => exec i t
    | none => .next (idleStep s)

/-- `s` with the instruction whose bits are `w` (numbered as spec/opcode_table.json numbers them, zeros above `nbits`)
offered at the request port of an idle block, so that the next step takes exactly it (notes/assumptions/14.md). A word the
decoder refuses leaves `s` as it is. -/
def State.withFetchWord (s : State) (nbits w : Nat) : State :=
  match decodeTableWord nbits w with
  | some i => offerRequest (encodeRequest i) s
  | none => s

end Sys2Proof.Machine
end

