-- ==== Sys2Proof/Safety.lean ====
section
/-! DEFINITION. The terms the claims use: the plan of each request as one function, the invariant every step keeps, and the
least time a trace takes. -/

namespace Sys2Proof.Machine

/-- The plan a request's rule gives, from the configuration and the backlight flag after its PreEffects (10_state.md R27,
20_memory.md R69). -/
def requestPlan (c : Config) (bl : Bool) : Instr → List Item
  | .init _ _ _ => initPlan c bl
  | .wcmd _ b _ => byteItems c bl b false
  | .wdata _ b _ => byteItems c bl b true
  | .nibble a b _ => nibItems c bl (lowNibble b) (a.getLsbD 0) 0 none
  | .setline a _ _ => lineItems c bl a
  | .wline a _ p => lineItems c bl a ++ textItems c bl p
  | .wext a _ p => lineItems c bl a ++ textItems c bl (parseText c.escAcceptUpperX p)
  | .bkl _ _ _ => backlightPlan c bl
  | .ldglyph _ _ p => glyphPlan c bl p
  | .rdstat _ _ _ => []
  | .xwb _ b _ => rawWrite c [b]
  | .xwr _ b p => rawWrite c (b :: p)
  | .xwblk _ b p => rawWrite c (blockBytes c b p)
  | .xrb _ _ _ => rawRead []
  | .xrr _ b _ => rawRead [b]
  | .xrblk _ b _ => rawRead [b]
  | .reserved _ _ _ => []

/-- What holds after reset and what every step keeps. -/
structure Invariant (s : State) : Prop where
  /-- ADDR is 0 where none was resolved (10_state.md R30) -/
  addr_zero : s.addrOk = false → s.addr = 0
  /-- BUS_SEL is the one HW_REV selects (70_reset_and_hazards.md R233) -/
  bus_sel : s.busSel = selectBus s.cfg
  /-- DDRAM and CGRAM of the reference display keep their canonical form -/
  ddram_wf : Memory.wf 128 s.display.ddram = true
  cgram_wf : Memory.wf 64 s.display.cgram = true
  /-- the longest plan has 1024 items (41_sequencer.md R153) -/
  plan_length : s.plan.length ≤ 1024
  /-- SEQ never passes the end of the plan, so it never wraps (10_state.md R27) -/
  seq_le : s.seq.toNat ≤ s.plan.length
  /-- an idle block has nothing on the bus and no failure pending (notes/assumptions/2.md) -/
  idle : s.busy = false → s.flight = none ∧ s.aborting = false
  /-- a busy block holds its request and exactly that request's plan (R27), has an address to send to (60_exceptions.md
  R204), and is READY if the request is a protocol request (R205) -/
  running : s.busy = true →
    ∃ r, s.req = some r ∧ s.plan = requestPlan s.cfg s.bl (decodeRequest r) ∧ s.addrOk = true ∧
      (needsReady (decodeRequest r) = true → s.pstate = .ready)
  /-- PSTATE = INITIALIZING exactly from the acceptance of INIT to its response (41_sequencer.md R145) -/
  initializing : s.pstate = .initializing ↔
    s.busy = true ∧ ∃ r, s.req = some r ∧ isInit (decodeRequest r) = true
  /-- the one transaction on the bus is the plan's next item, put there after the previous gap (20_memory.md R66,
  43_transport.md R193; the two fields are the model's, notes/assumptions/2.md) -/
  in_flight : ∀ it, s.flight = some it → s.aborting = false ∧ s.tmr = 0 ∧ s.plan[s.seq.toNat]? = some it

/-- An idle block that may run: a configuration R234 accepts, no reset asserted, no request executing. -/
def AtRest (s : State) : Prop :=
  configLegal s.cfg = true ∧ s.rst = false ∧ s.busy = false ∧ s.flight = none ∧ s.aborting = false

/-- A request of the block is on the bus with item `it`, and the block may run. -/
def OnBus (s : State) (r : Request) (it : Item) : Prop :=
  configLegal s.cfg = true ∧ s.rst = false ∧ s.busy = true ∧ s.req = some r ∧ s.flight = some it

/-- Some number of steps leads from `s` to `t`. -/
def Reaches (s t : State) : Prop := ∃ k, Host.Core.run Sys2Proof.core k s = .next t

/-- The environment's next answers are `n` successes, and then `rest`. -/
def AnswersOk (s : State) (n : Nat) (rest : List BusAnswer) : Prop :=
  ∃ oks : List BusAnswer, s.answers = oks ++ rest ∧ oks.length = n ∧ ∀ a ∈ oks, ∃ bs, a = .ok bs

/-- The raw transport requests (43_transport.md R190). -/
def isTransport : Instr → Bool
  | .xwb _ _ _ => true
  | .xwr _ _ _ => true
  | .xwblk _ _ _ => true
  | .xrb _ _ _ => true
  | .xrr _ _ _ => true
  | .xrblk _ _ _ => true
  | .init _ _ _ => false
  | .wcmd _ _ _ => false
  | .wdata _ _ _ => false
  | .nibble _ _ _ => false
  | .setline _ _ _ => false
  | .wline _ _ _ => false
  | .wext _ _ _ => false
  | .bkl _ _ _ => false
  | .ldglyph _ _ _ => false
  | .rdstat _ _ _ => false
  | .reserved _ _ _ => false

/-- The request a step works on: the one executing, or the one an idle block takes. -/
def currentInstr (s : State) : Option Instr :=
  if s.busy then s.req.map decodeRequest else (fetchRequest s).map (fun iu => iu.1)

/-- Two states that agree on what the raw transport requests never change (R190). -/
def SameProtocolState (s t : State) : Prop :=
  t.pstate = s.pstate ∧ t.bl = s.bl ∧ t.emId = s.emId ∧ t.emS = s.emS ∧ t.fsDl = s.fsDl ∧ t.fsN = s.fsN ∧
    t.fsF = s.fsF ∧ t.acUnk = s.acUnk ∧ t.desync = s.desync ∧ t.cgValid = s.cgValid

/-- The least time a list of items takes: the sum of its gaps (70_reset_and_hazards.md R246, R247). -/
def planTime (l : List Item) : Nat := (l.map (fun it => it.gap)).sum

/-- The trace elements of a list of items that all completed, in plan order (20_memory.md R66). -/
def planTrace (i : Instr) (s : State) (l : List Item) : List Tx := l.map (fun it => itemTx i it s .ok)

/-- The display after a list of items of the request `i` completed, in order. -/
def latchAll (c : Config) (i : Instr) (l : List Item) (d : Display) : Display :=
  l.foldl (fun d it => displayDone c i it d) d

/-- A display in step with the block: 4-bit mode, expecting a high nibble, the enable line known and low. -/
def InStep (c : Config) (d : Display) : Prop :=
  d.mode = .four ∧ d.phase = some .hi ∧ ∃ v, d.q = some v ∧ v.getLsbD c.pEn = false

end Sys2Proof.Machine
end

