-- ==== Sys2Proof/Certificates/Slice0/Obligations.lean ====
section
/-! DEFINITION. The statements for the provers, from the numbered rules of spec/. Each docstring names its rules. -/

open Sys2Proof Sys2Proof.Machine

/-! ### Encoding -/

/-- 30_encoding.md R90, R103: for every framed instruction, every well-formed one among them, the byte-serial decoder gives
back the encoded instruction and exactly the bytes after it. -/
def Obligations.DecodeOfEncodedBytes : Prop :=
  (∀ i : Instr, i.wellFormed = true → i.framed = true) ∧
    ∀ (i : Instr) (rest : List Byte), i.framed = true → decodeBytes (encode i ++ rest) = .ok (i, rest)

/-- R90, R103: the other direction. Whatever the decoder reads is exactly the encoding of what it answers. -/
def Obligations.EncodeOfDecodedBytes : Prop :=
  ∀ (bs rest : List Byte) (i : Instr), decodeBytes bs = .ok (i, rest) → i.framed = true ∧ encode i ++ rest = bs

/-- R100: words of each family, written out from the opcode map, decode to their instruction. -/
def Obligations.OpcodeWordsDecode : Prop :=
  decodeTableWord 16 0x0000 = some (.init 0 0 []) ∧ decodeTableWord 16 0x0828 = some (.wcmd 0 0x28 []) ∧
    decodeTableWord 16 0x190F = some (.nibble 1 0x0F []) ∧ decodeTableWord 16 0x2300 = some (.setline 3 0 []) ∧
    decodeTableWord 16 0x2902 = some (.wline 1 2 [0, 0]) ∧ decodeTableWord 16 0x3A00 = some (.bkl 2 0 []) ∧
    decodeTableWord 16 0x4800 = some (.rdstat 0 0 []) ∧ decodeTableWord 16 0x5801 = some (.xwr 0 1 [0]) ∧
    decodeTableWord 16 0x7810 = some (.xrblk 0 0x10 []) ∧ decodeTableWord 16 0xF8FF = some (.reserved 0xF 0 0xFF)

/-! ### The step -/

/-- 41_sequencer.md R140: an idle block takes the oldest request of its port, and the step is exec of it with the request
taken off; likewise a complete request from a byte-wide port (R103).
That the whole requests come before the byte-wide port is the model's choice (notes/assumptions/5.md). -/
def Obligations.StepRunsDecodedRequest : Prop :=
  (∀ (s : State) (r : Request) (rest : List Request),
      configLegal s.cfg = true → s.rst = false → s.busy = false → s.port = r :: rest →
      step s = exec (decodeRequest r) { s with port := rest }) ∧
    ∀ (s : State) (i : Instr) (rest : List Byte),
      configLegal s.cfg = true → s.rst = false → s.busy = false → s.port = [] → decodeBytes s.rx = .ok (i, rest) →
      step s = exec i { s with rx := rest }

/-- R140: while BUSY = 1 the port holds what the host offers; an idle block with no complete request only lets time pass.
That waiting is one step is the model's reading (notes/assumptions/7.md). -/
def Obligations.PortIsHeld : Prop :=
  (∀ s t : State, s.rst = false → s.busy = true → step s = .next t → t.port = s.port ∧ t.rx = s.rx) ∧
    ∀ s : State, configLegal s.cfg = true → s.rst = false → s.busy = false → s.port = [] →
      (∀ i rest, decodeBytes s.rx ≠ .ok (i, rest)) → step s = .next { s with tmr := 0 }

/-- The invariant of Safety.lean is kept by every step from every state that has it.
Its clause on INITIALIZING is R145 (92_eei_decisions.md D35; notes/assumptions/16.md says how R141's order is read); its
clauses on the fields `flight` and `aborting` rest on the model's own step boundaries (notes/assumptions/2.md). -/
def Obligations.InvKeptByStep : Prop := ∀ s t : State, Invariant s → step s = .next t → Invariant t

/-- The invariant holds after reset, for every configuration and every answer of the prober. -/
def Obligations.InvAtReset : Prop := (∀ c p, Invariant (State.resetWith c p)) ∧ Invariant State.reset

/-- No error state is reached: with the invariant and a configuration that may be run, every step answers a next state. -/
def Obligations.InvStepsAnswer : Prop :=
  ∀ s : State, Invariant s → configLegal s.cfg = true → ∃ t, step s = .next t

/-- 70_reset_and_hazards.md R234: exactly the configurations it names are refused. -/
def Obligations.IllegalConfigRefused : Prop :=
  ∀ s : State,
    step s = .refused .illegalConfig ↔
      (¬(s.cfg.pRs < 4 ∧ s.cfg.pRw < 4 ∧ s.cfg.pEn < 4 ∧ s.cfg.pBl < 4 ∧ s.cfg.pRs ≠ s.cfg.pRw ∧
          s.cfg.pRs ≠ s.cfg.pEn ∧ s.cfg.pRs ≠ s.cfg.pBl ∧ s.cfg.pRw ≠ s.cfg.pEn ∧ s.cfg.pRw ≠ s.cfg.pBl ∧
          s.cfg.pEn ≠ s.cfg.pBl)) ∨
        (s.cfg.numLines ≠ 1 ∧ s.cfg.numLines ≠ 2 ∧ s.cfg.numLines ≠ 4) ∨
        (s.cfg.numCols ≠ 16 ∧ s.cfg.numCols ≠ 20 ∧ s.cfg.lineBase = none) ∨
        254 < s.cfg.blockMax ∨ s.cfg.blockMax < s.cfg.readBlockLen

/-! ### Reset -/

/-- 10_state.md R39: the reset value of every field of the block. -/
def Obligations.ResetValues : Prop :=
  ∀ (c : Config) (p : ProbeAnswer) (s : State), s = State.resetWith c p →
    s.pstate = .uninit ∧ s.bl = c.blInit ∧ s.emId = false ∧ s.emS = false ∧ s.fsDl = false ∧ s.fsN = false ∧
      s.fsF = false ∧ s.acUnk = true ∧ s.desync = true ∧ s.cgValid = false ∧ s.lastErr = .ok ∧
      s.addr = (resolveAddr c p).getD 0 ∧ s.addrOk = (resolveAddr c p).isSome ∧
      s.busSel = (if c.hwRev = 1 then 0 else 1) ∧ s.busy = false ∧ s.plan = [] ∧ s.seq = 0 ∧ s.tmr = c.tPor ∧
      s.req = none

/-- 70_reset_and_hazards.md R231: explicit, first probed, default, none, in that order; the prober is asked only without an
explicit address; the result stands until the next reset. -/
def Obligations.AddressResolution : Prop :=
  (∀ (c : Config) (p : ProbeAnswer) (a : BusAddr), c.explicitAddr = some a →
      (State.resetWith c p).addr = a ∧ (State.resetWith c p).addrOk = true) ∧
    (∀ (c : Config) (a : BusAddr) (rest : List BusAddr), c.explicitAddr = none →
      (State.resetWith c (some (a :: rest))).addr = a ∧ (State.resetWith c (some (a :: rest))).addrOk = true) ∧
    (∀ (c : Config) (p : ProbeAnswer) (a : BusAddr), c.explicitAddr = none → (p = none ∨ p = some []) →
      c.defaultAddr = some a → (State.resetWith c p).addr = a ∧ (State.resetWith c p).addrOk = true) ∧
    (∀ (c : Config) (p : ProbeAnswer), c.explicitAddr = none → (p = none ∨ p = some []) → c.defaultAddr = none →
      (State.resetWith c p).addr = 0 ∧ (State.resetWith c p).addrOk = false) ∧
    (∀ s t : State, s.rst = true → s.cfg.explicitAddr ≠ none → step s = .next t → t.probes = s.probes) ∧
    ∀ s t : State, s.rst = false → step s = .next t → t.addr = s.addr ∧ t.addrOk = s.addrOk

/-- R233, 10_state.md R31: BUS_SEL is chosen at reset from HW_REV and never written again.
That no step, a reset included, changes the configuration (00_scope.md R6: fixed at reset) is the model's choice
(notes/assumptions/3.md). -/
def Obligations.BusSelection : Prop :=
  (∀ (c : Config) (p : ProbeAnswer), c.hwRev = 1 → (State.resetWith c p).busSel = 0) ∧
    (∀ (c : Config) (p : ProbeAnswer), c.hwRev ≠ 1 → (State.resetWith c p).busSel = 1) ∧
    ∀ s t : State, step s = .next t → t.cfg = s.cfg ∧ (s.rst = false → t.busSel = s.busSel)

/-- R230: an asserted reset sets every field of the block to its reset value, at any point of a request; the request gets
no response, its transaction in flight is cut off, and its display is unknown.
That the port, the answers and an idle block's display outlive a reset is the model's choice (notes/assumptions/4.md), and
so is that the transaction cut off joins the trace only now (notes/assumptions/20.md). -/
def Obligations.ResetAbandonsRequest : Prop :=
  ∀ s : State, configLegal s.cfg = true → s.rst = true →
    ∃ (p : ProbeAnswer) (t : State), step s = .next t ∧
      (s.probes ≠ [] → s.probes.head? = some p) ∧
      t = { State.resetWith s.cfg p with
        port := t.port, rx := t.rx, answers := t.answers, probes := t.probes, draws := t.draws, trace := t.trace,
        responses := t.responses, display := t.display } ∧
      t.responses = s.responses ∧ t.busy = false ∧
      (s.busy = true → t.display = Display.allUnknown) ∧ (s.busy = false → t.display = s.display) ∧
      (∀ r it, s.req = some r → s.flight = some it → t.trace = s.trace ++ [itemTx (decodeRequest r) it s .cut]) ∧
      (s.flight = none → t.trace = s.trace)

/-! ### Taking a request -/

/-- 60_exceptions.md R208: the acceptance check and its order.
That RDSTAT and an empty plan answer at once while TMR runs is the model's reading (notes/assumptions/10.md). -/
def Obligations.CheckOrder : Prop :=
  ∀ (i : Instr) (s : State), s.busy = false →
    ∃ t, exec i s = .next t ∧
      (isReserved i = true → t.responses = s.responses ++ [⟨.illegalOp, []⟩]) ∧
      (isReserved i = false → legalOperands s.cfg i = false → t.responses = s.responses ++ [⟨.badOperand, []⟩]) ∧
      (isReserved i = false → legalOperands s.cfg i = true → needsAddress i = true → s.addrOk = false →
        t.responses = s.responses ++ [⟨.addressResolutionError, []⟩]) ∧
      (isReserved i = false → legalOperands s.cfg i = true → (needsAddress i = true → s.addrOk = true) →
        needsReady i = true → s.pstate ≠ .ready → t.responses = s.responses ++ [⟨.notReady, []⟩]) ∧
      (isReserved i = false → legalOperands s.cfg i = true → (needsAddress i = true → s.addrOk = true) →
        (needsReady i = true → s.pstate = .ready) →
        t.busy = true ∧ t.responses = s.responses ∨ ∃ bs, t.responses = s.responses ++ [⟨.ok, bs⟩])

/-- R206: a reserved OP (0x10 to 0x1F, header bit 15) ends with IllegalOp; nothing else changes, and no payload byte is
taken, from a byte-wide port or from a request delivered whole. -/
def Obligations.ReservedIsIllegalOp : Prop :=
  (∀ (op : BitVec 4) (a : BitVec 3) (b : Byte) (s : State), s.busy = false → s.aborting = false →
      exec (.reserved op a b) s =
        .next { s with lastErr := .illegalOp, responses := s.responses ++ [⟨.illegalOp, []⟩] }) ∧
    (∀ (hi lo : Byte) (rest : List Byte), hi.getLsbD 7 = true →
      ∃ op a b, decodeBytes (hi :: lo :: rest) = .ok (.reserved op a b, rest)) ∧
    ∀ r : Request, 0x10 ≤ (r.header.extractLsb' 11 5).toNat ↔ ∃ op a b, decodeRequest r = .reserved op a b

/-- R207: an operand or a payload length outside the legal set of 30_encoding.md R101 and R103 ends with BadOperand; nothing
else changes. -/
def Obligations.IllegalOperandIsBadOperand : Prop :=
  (∀ (i : Instr) (s : State), s.busy = false → s.aborting = false → isReserved i = false →
      legalOperands s.cfg i = false →
      exec i s = .next { s with lastErr := .badOperand, responses := s.responses ++ [⟨.badOperand, []⟩] }) ∧
    ∀ (c : Config) (i : Instr), legalOperands c i = true ↔
      match i with
      | .init a b p => a = 0 ∧ b = 0 ∧ p = []
      | .wcmd a _ p => a = 0 ∧ p = []
      | .wdata a _ p => a = 0 ∧ p = []
      | .nibble a b p => a.toNat < 2 ∧ b.toNat < 16 ∧ p = []
      | .setline a b p => 1 ≤ a.toNat ∧ a.toNat ≤ c.numLines ∧ b = 0 ∧ p = []
      | .wline a b p => a.toNat ≤ c.numLines ∧ p.length = b.toNat
      | .wext a b p => a.toNat ≤ c.numLines ∧ p.length = b.toNat
      | .bkl a b p => a.toNat < 3 ∧ b = 0 ∧ p = []
      | .ldglyph a b p => a = 0 ∧ b = 0 ∧ p.length = 64
      | .rdstat a b p => a = 0 ∧ b = 0 ∧ p = []
      | .xwb a _ p => a = 0 ∧ p = []
      | .xwr a _ p => a = 0 ∧ p.length = 1
      | .xwblk a _ p => a = 0 ∧ ∃ l data, p = l :: data ∧ data.length = l.toNat ∧ l.toNat ≤ c.blockMax
      | .xrb a b p => a = 0 ∧ b = 0 ∧ p = []
      | .xrr a _ p => a = 0 ∧ p = []
      | .xrblk a _ p => a = 0 ∧ p = []
      | .reserved _ _ _ => False

/-- R204: without an address every request but RDSTAT ends with AddressResolutionError and changes nothing else; ADDR_OK = 0
arises only at reset with no source of an address, and only a reset clears it. -/
def Obligations.NoAddressError : Prop :=
  (∀ (i : Instr) (s : State), s.busy = false → s.aborting = false → isReserved i = false →
      legalOperands s.cfg i = true → (∀ a b p, i ≠ .rdstat a b p) → s.addrOk = false →
      exec i s = .next
        { s with lastErr := .addressResolutionError, responses := s.responses ++ [⟨.addressResolutionError, []⟩] }) ∧
    (∀ (c : Config) (p : ProbeAnswer), (State.resetWith c p).addrOk = false ↔
      c.explicitAddr = none ∧ (p = none ∨ p = some []) ∧ c.defaultAddr = none) ∧
    ∀ s t : State, step s = .next t → t.addrOk ≠ s.addrOk → s.rst = true

/-- R205: a protocol request while PSTATE is not READY ends with NotReady and changes nothing but LAST_ERR; INIT, RDSTAT and
the transport requests never end so. -/
def Obligations.ProtocolRequestNotReady : Prop :=
  (∀ (i : Instr) (s : State), s.busy = false → s.aborting = false → needsReady i = true →
      legalOperands s.cfg i = true → s.addrOk = true → s.pstate ≠ .ready →
      exec i s = .next { s with lastErr := .notReady, responses := s.responses ++ [⟨.notReady, []⟩] }) ∧
    (∀ (i : Instr) (s t : State), needsReady i = false → exec i s = .next t →
      t.responses ≠ s.responses ++ [⟨.notReady, []⟩]) ∧
    ∀ i : Instr, needsReady i = true ↔
      ∃ a b p, i = .wcmd a b p ∨ i = .wdata a b p ∨ i = .nibble a b p ∨ i = .setline a b p ∨ i = .wline a b p ∨
        i = .wext a b p ∨ i = .bkl a b p ∨ i = .ldglyph a b p

/-- 41_sequencer.md R140, 60_exceptions.md R210: the frame of taking any request: it puts nothing on the bus and reads nothing
from it, and leaves the configuration, the address, the bus, TMR, the snooped fields, AC_UNK, CG_VALID, the ports, the trace
and every entry of the display's memories as they were; BL changes only by BKL, DESYNC only by NIBBLE, PSTATE only by
INIT.
That a rejected request leaves REQ as it was is the model's reading (notes/assumptions/6.md). -/
def Obligations.AcceptanceFrame : Prop :=
  ∀ (i : Instr) (s : State), ∃ t, exec i s = .next t ∧
    t = { s with
      pstate := t.pstate, bl := t.bl, desync := t.desync, lastErr := t.lastErr, busy := t.busy, plan := t.plan,
      seq := t.seq, req := t.req, aborting := t.aborting, rdata := t.rdata, responses := t.responses } ∧
    (t.bl ≠ s.bl → ∃ a b p, i = .bkl a b p) ∧ (t.desync ≠ s.desync → ∃ a b p, i = .nibble a b p) ∧
    (t.pstate ≠ s.pstate → ∃ a b p, i = .init a b p)

/-- 41_sequencer.md R143, R140: INIT is taken in every PSTATE. -/
def Obligations.InitTaken : Prop :=
  ∀ s : State, s.addrOk = true →
    exec (.init 0 0 []) s = .next
      { s with
        req := some ⟨0x0000, []⟩, busy := true, pstate := .initializing, plan := initPlan s.cfg s.bl, seq := 0,
        rdata := [] }

/-- 40_protocol_primitives.md R125, R126: WCMD and WDATA run the full-byte write of their operand with RS 0 and 1. -/
def Obligations.ByteWritesTaken : Prop :=
  ∀ (s : State) (b : Byte), s.addrOk = true → s.pstate = .ready →
    exec (.wcmd 0 b []) s = .next
        { s with
          req := some ⟨0x0800 + b.setWidth 16, []⟩, busy := true, plan := byteItems s.cfg s.bl b false, seq := 0,
          rdata := [] } ∧
      exec (.wdata 0 b []) s = .next
        { s with
          req := some ⟨0x1000 + b.setWidth 16, []⟩, busy := true, plan := byteItems s.cfg s.bl b true, seq := 0,
          rdata := [] }

/-- R127: NIBBLE sets DESYNC as it starts and runs the nibble write of B[3:0] with RS = A[0]. -/
def Obligations.NibbleTaken : Prop :=
  ∀ (s : State) (rs : Bool) (d : Nibble), s.addrOk = true → s.pstate = .ready →
    exec (.nibble (if rs then 1 else 0) (d.setWidth 8) []) s = .next
      { s with
        req := some ⟨0x1800 + (if rs then 0x100 else 0) + d.setWidth 16, []⟩, busy := true, desync := true,
        plan := nibItems s.cfg s.bl d rs 0 none, seq := 0, rdata := [] }

/-- R146: SETLINE runs the full-byte command write of the line's base, for every line 1..NUM_LINES. -/
def Obligations.SetlineTaken : Prop :=
  ∀ (s : State) (k : BitVec 3), configLegal s.cfg = true → 1 ≤ k.toNat → k.toNat ≤ s.cfg.numLines →
    s.addrOk = true → s.pstate = .ready →
    ∃ base, lineBaseAt s.cfg k.toNat = some base ∧
      exec (.setline k 0 []) s = .next
        { s with
          req := some (encodeRequest (.setline k 0 [])), busy := true, plan := byteItems s.cfg s.bl base false,
          seq := 0, rdata := [] }

/-- R147, R142: WLINE addresses its line where k is not 0 and then sends its text; with nothing to send it succeeds at once.
That an empty plan answers at once while TMR runs is the model's reading (notes/assumptions/10.md). -/
def Obligations.WlineTaken : Prop :=
  ∀ (s : State) (k : BitVec 3) (n : Byte) (p : List Byte), configLegal s.cfg = true → k.toNat ≤ s.cfg.numLines →
    p.length = n.toNat → s.addrOk = true → s.pstate = .ready → s.aborting = false →
    exec (.wline k n p) s = .next
      (if k = 0 ∧ p = [] then
        { s with
          req := some (encodeRequest (.wline k n p)), plan := [], seq := 0, rdata := [], busy := false,
          lastErr := .ok, responses := s.responses ++ [⟨.ok, []⟩] }
      else
        { s with
          req := some (encodeRequest (.wline k n p)), busy := true,
          plan := (match lineBaseAt s.cfg k.toNat with
            | some base => byteItems s.cfg s.bl base false
            | none => []) ++ (p.map (fun x => byteItems s.cfg s.bl x true)).flatten,
          seq := 0, rdata := [] })

/-- R149, R142: WEXT is WLINE over the parsed text.
That an empty plan answers at once while TMR runs is the model's reading (notes/assumptions/10.md). -/
def Obligations.WextTaken : Prop :=
  ∀ (s : State) (k : BitVec 3) (n : Byte) (p : List Byte), configLegal s.cfg = true → k.toNat ≤ s.cfg.numLines →
    p.length = n.toNat → s.addrOk = true → s.pstate = .ready → s.aborting = false →
    exec (.wext k n p) s = .next
      (if k = 0 ∧ p = [] then
        { s with
          req := some (encodeRequest (.wext k n p)), plan := [], seq := 0, rdata := [], busy := false,
          lastErr := .ok, responses := s.responses ++ [⟨.ok, []⟩] }
      else
        { s with
          req := some (encodeRequest (.wext k n p)), busy := true,
          plan := (match lineBaseAt s.cfg k.toNat with
            | some base => byteItems s.cfg s.bl base false
            | none => []) ++
              ((parseText s.cfg.escAcceptUpperX p).map (fun x => byteItems s.cfg s.bl x true)).flatten,
          seq := 0, rdata := [] })

/-- R150: BKL stores the new flag (off, on, toggle), then writes the backlight bit alone. -/
def Obligations.BklTaken : Prop :=
  ∀ (s : State) (m : BitVec 3) (bl : Bool), s.addrOk = true → s.pstate = .ready →
    (m = 0 ∧ bl = false ∨ m = 1 ∧ bl = true ∨ m = 2 ∧ bl = !s.bl) →
    exec (.bkl m 0 []) s = .next
      { s with
        req := some (encodeRequest (.bkl m 0 [])), busy := true, bl := bl,
        plan := [⟨[if bl then 1#8 <<< s.cfg.pBl else 0], s.cfg.tSettle, .blw, none⟩], seq := 0, rdata := [] }

/-- 42_cgram.md R171: LDGLYPH runs, slot by slot, the set-CGRAM command of the slot and its 8 masked rows. -/
def Obligations.LdglyphTaken : Prop :=
  ∀ (s : State) (p : List Byte), p.length = 64 → s.addrOk = true → s.pstate = .ready →
    exec (.ldglyph 0 0 p) s = .next
      { s with
        req := some ⟨0x4000, p⟩, busy := true,
        plan := ((List.range 8).map (fun k =>
          byteItems s.cfg s.bl (BitVec.ofNat 8 (0x40 + 8 * k)) false ++
            ((List.range 8).map (fun r =>
              byteItems s.cfg s.bl (p.getD (8 * k + r) 0 &&& 0x1F) true)).flatten)).flatten,
        seq := 0, rdata := [] }

/-- 41_sequencer.md R151, 20_memory.md R58: RDSTAT answers at once, in every PSTATE and without an address, the status word
as it stood before, least significant byte first; it writes LAST_ERR = 0 and puts nothing on the bus.
That it answers at once while TMR runs is the model's reading (notes/assumptions/10.md). -/
def Obligations.RdstatAnswers : Prop :=
  ∀ s : State, s.busy = false → s.aborting = false →
    exec (.rdstat 0 0 []) s = .next
      { s with
        req := some ⟨0x4800, []⟩, plan := [], seq := 0, rdata := [], lastErr := .ok,
        responses := s.responses ++
          [⟨.ok, (List.range 4).map (fun i => (statusWord s).extractLsb' (8 * i) 8)⟩] }

/-- 43_transport.md R183 to R185: XWB, XWR and XWBLK each run one write of exactly the given bytes, in every PSTATE. -/
def Obligations.RawWritesTaken : Prop :=
  ∀ (s : State) (v reg : Byte) (data : List Byte) (l : Byte), s.addrOk = true →
    exec (.xwb 0 v []) s = .next
        { s with
          req := some (encodeRequest (.xwb 0 v [])), busy := true, plan := [⟨[v], s.cfg.tSettle, .raww, none⟩],
          seq := 0, rdata := [] } ∧
      exec (.xwr 0 reg [v]) s = .next
        { s with
          req := some (encodeRequest (.xwr 0 reg [v])), busy := true,
          plan := [⟨[reg, v], s.cfg.tSettle, .raww, none⟩], seq := 0, rdata := [] } ∧
      (data.length = l.toNat → l.toNat ≤ s.cfg.blockMax →
        exec (.xwblk 0 reg (l :: data)) s = .next
          { s with
            req := some (encodeRequest (.xwblk 0 reg (l :: data))), busy := true,
            plan := [⟨reg :: ((if s.cfg.blockWriteCountOnWire then [l] else []) ++ data), s.cfg.tSettle, .raww, none⟩],
            seq := 0, rdata := [] })

/-- R186 to R188: XRB, XRR and XRBLK each run one read, after the register byte where they name one, in every PSTATE. -/
def Obligations.RawReadsTaken : Prop :=
  ∀ (s : State) (reg : Byte), s.addrOk = true →
    exec (.xrb 0 0 []) s = .next
        { s with
          req := some (encodeRequest (.xrb 0 0 [])), busy := true, plan := [⟨[], 0, .rawr, none⟩], seq := 0,
          rdata := [] } ∧
      exec (.xrr 0 reg []) s = .next
        { s with
          req := some (encodeRequest (.xrr 0 reg [])), busy := true, plan := [⟨[reg], 0, .rawr, none⟩], seq := 0,
          rdata := [] } ∧
      exec (.xrblk 0 reg []) s = .next
        { s with
          req := some (encodeRequest (.xrblk 0 reg [])), busy := true, plan := [⟨[reg], 0, .rawr, none⟩], seq := 0,
          rdata := [] }

/-! ### Plans -/

/-- 40_protocol_primitives.md R121, R122, R130: the nibble write, and the full-byte write: high nibble then low nibble, the
same select on both, four writes with the bytes the rule gives, the last marked with the byte; clear and home wait
T_LONG_CMD more; the split loses nothing. -/
def Obligations.ByteWriteItems : Prop :=
  (∀ (c : Config) (bl rs : Bool) (d : Nibble) (extra : Nat),
      nibItems c bl d rs extra none =
        [⟨[expByte c d rs true bl], c.tSettle + c.tEnHigh, .enh, none⟩,
          ⟨[expByte c d rs false bl], c.tSettle + c.tEnLow + extra, .enl, none⟩]) ∧
    (∀ (c : Config) (bl rs : Bool) (b c1 c0 : Byte),
      c1 = (if rs then 1#8 <<< c.pRs else 0) ||| (1#8 <<< c.pEn) ||| (if bl then 1#8 <<< c.pBl else 0) →
      c0 = (if rs then 1#8 <<< c.pRs else 0) ||| (if bl then 1#8 <<< c.pBl else 0) →
      byteItems c bl b rs =
        [⟨[(b &&& 0xF0) ||| c1], c.tSettle + c.tEnHigh, .enh, none⟩,
          ⟨[(b &&& 0xF0) ||| c0], c.tSettle + c.tEnLow, .enl, none⟩,
          ⟨[((b <<< 4) &&& 0xF0) ||| c1], c.tSettle + c.tEnHigh, .enh, none⟩,
          ⟨[((b <<< 4) &&& 0xF0) ||| c0],
            c.tSettle + c.tEnLow + (if rs = false ∧ (b = 1 ∨ b = 2 ∨ b = 3) then c.tLongCmd else 0), .enl,
            some (b, rs)⟩]) ∧
    ∀ b : Byte, b &&& 0xF0 = (highNibble b).setWidth 8 <<< 4 ∧
      (b <<< 4) &&& 0xF0 = (lowNibble b).setWidth 8 <<< 4 ∧ highNibble b ++ lowNibble b = b

/-- R129, and R128's byte part: every expander byte of a protocol request's plan carries the backlight flag and has bit
P_RW = 0. -/
def Obligations.BacklightOnEveryByte : Prop :=
  ∀ (c : Config) (bl : Bool) (i : Instr), configLegal c = true → needsReady i = true ∨ isInit i = true →
    ∀ it ∈ requestPlan c bl i, ∃ v, it.bytes = [v] ∧ v.getLsbD c.pBl = bl ∧ v.getLsbD c.pRw = false

/-- 10_state.md R22, R150: only an accepted BKL and reset write BL. -/
def Obligations.BacklightOwner : Prop :=
  ∀ s t : State, step s = .next t → t.bl ≠ s.bl →
    s.rst = true ∨ ∃ a b p u, s.busy = false ∧ fetchRequest s = some (.bkl a b p, u) ∧
      t.bl = backlightMode a s.bl ∧ t.busy = true

/-- 41_sequencer.md R153: the plan length of every legal request, and the longest. -/
def Obligations.PlanLengths : Prop :=
  ∀ (c : Config) (bl : Bool) (i : Instr), configLegal c = true → legalOperands c i = true →
    (requestPlan c bl i).length =
      (match i with
      | .init _ _ _ => 24
      | .wcmd _ _ _ => 4
      | .wdata _ _ _ => 4
      | .setline _ _ _ => 4
      | .nibble _ _ _ => 2
      | .wline a b _ => (if a = 0 then 0 else 4) + 4 * b.toNat
      | .wext a _ p => (if a = 0 then 0 else 4) + 4 * (parseText c.escAcceptUpperX p).length
      | .bkl _ _ _ => 1
      | .ldglyph _ _ _ => 288
      | .rdstat _ _ _ => 0
      | .xwb _ _ _ => 1
      | .xwr _ _ _ => 1
      | .xwblk _ _ _ => 1
      | .xrb _ _ _ => 1
      | .xrr _ _ _ => 1
      | .xrblk _ _ _ => 1
      | .reserved _ _ _ => 0) ∧
      (requestPlan c bl i).length ≤ 1024 ∧
      ∀ p : List Byte, p.length = 255 → (requestPlan c bl (.wline 1 255 p)).length = 1024

/-- R143: INIT's 24 bytes with the default bit positions, and its gaps. -/
def Obligations.InitPlanItems : Prop :=
  ∀ c : Config, c.pRs = 0 → c.pRw = 1 → c.pEn = 2 → c.pBl = 3 →
    ((initPlan c true).map (fun it => it.bytes)).flatten =
        [0x3C, 0x38, 0x3C, 0x38, 0x3C, 0x38, 0x2C, 0x28, 0x2C, 0x28, 0x8C, 0x88, 0x0C, 0x08, 0xCC, 0xC8, 0x0C, 0x08,
          0x1C, 0x18, 0x0C, 0x08, 0x6C, 0x68] ∧
      ((initPlan c false).map (fun it => it.bytes)).flatten =
        [0x34, 0x30, 0x34, 0x30, 0x34, 0x30, 0x24, 0x20, 0x24, 0x20, 0x84, 0x80, 0x04, 0x00, 0xC4, 0xC0, 0x04, 0x00,
          0x14, 0x10, 0x04, 0x00, 0x64, 0x60] ∧
      ∀ bl n it, (initPlan c bl)[n]? = some it →
        it.gap = (if n % 2 = 0 then c.tSettle + c.tEnHigh
          else c.tSettle + c.tEnLow + (if n = 1 then c.tSync1 else if n = 19 then c.tLongCmd
            else if n = 23 then c.tInit else 0))

/-- 30_encoding.md R96, R97, 00_scope.md R6: the line base tables, an explicit one among them, and the CGRAM commands. -/
def Obligations.AddressCommands : Prop :=
  (∀ c : Config, c.lineBase = none → c.numCols = 20 →
      [1, 2, 3, 4].map (lineBaseAt c) = [some 0x80, some 0xC0, some 0x94, some 0xD4]) ∧
    (∀ c : Config, c.lineBase = none → c.numCols = 16 →
      [1, 2, 3, 4].map (lineBaseAt c) = [some 0x80, some 0xC0, some 0x90, some 0xD0]) ∧
    (∀ (c : Config) (t : LineBase), c.lineBase = some t →
      [1, 2, 3, 4].map (lineBaseAt c) = [some t.line1, some t.line2, some t.line3, some t.line4]) ∧
    (∀ c : Config, lineBaseAt c 0 = none) ∧
    (List.range 8).map cgCommand = [0x40, 0x48, 0x50, 0x58, 0x60, 0x68, 0x70, 0x78]

/-- 41_sequencer.md R148, 30_encoding.md R99: the extended-string parser and its hex digits. -/
def Obligations.ParseEquations : Prop :=
  ((∀ d, d < 10 → hexval (BitVec.ofNat 8 (0x30 + d)) = some d) ∧
    (∀ d, d < 6 → hexval (BitVec.ofNat 8 (0x41 + d)) = some (10 + d) ∧
      hexval (BitVec.ofNat 8 (0x61 + d)) = some (10 + d)) ∧
    ∀ c : Byte, hexval c ≠ none → (0x30 ≤ c.toNat ∧ c.toNat ≤ 0x39) ∨ (0x41 ≤ c.toNat ∧ c.toNat ≤ 0x46) ∨
      (0x61 ≤ c.toNat ∧ c.toNat ≤ 0x66)) ∧
  ∀ (u : Bool) (p : List Byte),
    (p = [] → parseText u p = []) ∧
      (∀ (x d e : Byte) (h l : Nat) (rest : List Byte), x = 0x78 ∨ (u = true ∧ x = 0x58) → hexval d = some h →
        hexval e = some l → p = 0x7B :: 0x30 :: x :: d :: e :: 0x7D :: rest →
        parseText u p = BitVec.ofNat 8 (16 * h + l) :: parseText u rest) ∧
      (∀ (c : Byte) (rest : List Byte), p = c :: rest →
        (¬∃ (x d e : Byte) (tail : List Byte), (x = 0x78 ∨ (u = true ∧ x = 0x58)) ∧ hexval d ≠ none ∧
          hexval e ≠ none ∧ p = 0x7B :: 0x30 :: x :: d :: e :: 0x7D :: tail) →
        parseText u p = c :: parseText u rest)

/-- R131 (its formula), 70_reset_and_hazards.md R247: the least time of the plan of every request. The formula gives 1600 µs
for a byte where R131 and R247 print 1400, so their figures are lower bounds where a byte is sent
(notes/assumptions/15.md). -/
def Obligations.LeastDurations : Prop :=
  (∀ (c : Config) (bl rs : Bool) (b : Byte),
      planTime (byteItems c bl b rs) = 4 * c.tSettle + 2 * c.tEnHigh + 2 * c.tEnLow + longWait c b rs) ∧
    ∀ c : Config, c.tSettle = 100 → c.tEnHigh = 500 → c.tEnLow = 100 → c.tInit = 200000 → c.tLongCmd = 0 →
      c.tSync1 = 0 → configLegal c = true → ∀ (bl : Bool) (i : Instr), legalOperands c i = true →
      ∀ us, us = planTime (requestPlan c bl i) →
        match i with
        | .init _ _ _ => us = 209600
        | .wcmd _ _ _ => 1400 ≤ us
        | .wdata _ _ _ => 1400 ≤ us
        | .nibble _ _ _ => us = 800
        | .setline _ _ _ => 1400 ≤ us
        | .wline a _ p => 1400 * (p.length + if a = 0 then 0 else 1) ≤ us
        | .wext a _ p => 1400 * ((parseText c.escAcceptUpperX p).length + if a = 0 then 0 else 1) ≤ us
        | .bkl _ _ _ => us = 100
        | .ldglyph _ _ _ => 100800 ≤ us
        | .rdstat _ _ _ => us = 0
        | .xwb _ _ _ => us = 100
        | .xwr _ _ _ => us = 100
        | .xwblk _ _ _ => us = 100
        | .xrb _ _ _ => us = 0
        | .xrr _ _ _ => us = 0
        | .xrblk _ _ _ => us = 0
        | .reserved _ _ _ => us = 0

/-! ### Running a plan -/

/-- 20_memory.md R66, 60_exceptions.md R215, 43_transport.md R193: a transaction is put on the bus only by a running plan,
only when TMR is 0 and no other is there, and it is the plan's next item.
That issuing is a step of its own is the model's choice (notes/assumptions/2.md), and so is that it does not touch the
trace (notes/assumptions/20.md). -/
def Obligations.IssueInOrder : Prop :=
  ∀ (s t : State) (it : Item), s.flight = none → s.rst = false → step s = .next t → t.flight = some it →
    s.busy = true ∧ s.tmr = 0 ∧ s.aborting = false ∧ s.plan[s.seq.toNat]? = some it ∧
      t = { s with flight := some it }

/-- R141, 10_state.md R27: a transaction that ends ok loads TMR with its gap, advances SEQ by one, snoops a command byte,
joins the trace, and changes nothing else of the block; a read (43_transport.md R186 to R188) also leaves its response
bytes.
The field `rdata` that holds those bytes is the model's own (notes/assumptions/2.md); that a transaction joins the trace as it
ends is the model's choice (notes/assumptions/20.md). What the display is afterwards is the
model's reading where the spec is silent: after a write by whose strobes it follows (notes/assumptions/8.md) and while INIT
runs (notes/assumptions/12.md); after a read that first sends a byte it is unknown (notes/assumptions/9.md), and `cgKnown`
is kept (notes/assumptions/19.md). -/
def Obligations.TransactionCompletes : Prop :=
  ∀ (s : State) (r : Request) (it : Item) (bs : List Byte) (rest : List BusAnswer), OnBus s r it →
    s.answers = .ok bs :: rest →
    (it.kind ≠ .rawr →
      ∃ t, step s = .next t ∧ t.tmr = it.gap ∧ t.seq = s.seq + 1 ∧
        t.trace = s.trace ++ [⟨s.busSel, s.addr, .write it.bytes, it.gap, .ok⟩] ∧
        t = { (match it.done with
            | some (b, false) => snoop b s
            | _ => s) with
          flight := none, tmr := it.gap, seq := s.seq + 1, rdata := s.rdata, answers := rest, draws := s.draws + 1,
          trace := t.trace, display := displayDone s.cfg (decodeRequest r) it s.display }) ∧
      ∀ data, it.kind = .rawr → readResult s.cfg (decodeRequest r) bs s.draws = some data →
        ∃ t, step s = .next t ∧ t.tmr = it.gap ∧ t.seq = s.seq + 1 ∧ t.rdata = data ∧
          t.trace = s.trace ++
            [⟨s.busSel, s.addr, .read it.bytes (readLength s.cfg (decodeRequest r)), it.gap, .ok⟩] ∧
          t = { (match it.done with
              | some (b, false) => snoop b s
              | _ => s) with
            flight := none, tmr := it.gap, seq := s.seq + 1, rdata := data, answers := rest, draws := s.draws + 1,
            trace := t.trace,
            display := if it.bytes = [] then s.display
              else { Display.allUnknown with cgKnown := s.display.cgKnown } }

/-- R141, R124, R150: a transaction that fails, or a read whose count is above BLOCK_MAX (43_transport.md R188), loads TMR
with its gap and leaves the request to end; a strobe write sets DESYNC and AC_UNK, any other sets neither; LDGLYPH clears
CG_VALID (42_cgram.md R173); PSTATE (INITIALIZING, for INIT, until its response: R145), SEQ, PLAN and everything else stay.
That a failing item of INIT leaves PSTATE until the response is the model's reading: R145 and ruling D35 chosen over R141,
which calls OnFail before the gap (notes/assumptions/16.md). The flag `aborting` that holds the request until its gap is
over is the model's own (notes/assumptions/2.md), and so is that the transaction joins the trace as it ends
(notes/assumptions/20.md); what a failure leaves of the display is the model's reading of R84
(notes/assumptions/8.md, notes/assumptions/9.md, notes/assumptions/19.md). -/
def Obligations.TransactionFails : Prop :=
  ∀ (s : State) (r : Request) (it : Item) (a : BusAnswer) (rest : List BusAnswer), OnBus s r it →
    s.answers = a :: rest →
    (a = .fail ∨ it.kind = .rawr ∧ ∃ bs, a = .ok bs ∧ readResult s.cfg (decodeRequest r) bs s.draws = none) →
    ∃ t, step s = .next t ∧ t.trace = s.trace ++ [itemTx (decodeRequest r) it s .fail] ∧
      t = { s with
        flight := none, tmr := it.gap, aborting := true, answers := rest, draws := s.draws + 1, trace := t.trace,
        display := displayFailed it s.display,
        desync := s.desync || it.kind == .enh || it.kind == .enl,
        acUnk := s.acUnk || it.kind == .enh || it.kind == .enl,
        cgValid := if headerOp r.header = 0x08 then false else s.cgValid }

/-- 43_transport.md R192: a transaction that never completes leaves the block as it is, BUSY and with no response, however
many steps are taken; a reset ends it. -/
def Obligations.HangUntilReset : Prop :=
  ∀ (s : State) (r : Request) (it : Item) (rest : List BusAnswer), OnBus s r it → s.answers = .never :: rest →
    (∀ k, Host.Core.run Sys2Proof.core k s = .next s) ∧ ∃ t, step { s with rst := true } = .next t ∧ t.busy = false

/-- 40_protocol_primitives.md R123: the command snoop, case by case.
The spec marks the cases' boundaries [from general knowledge, not in source]. -/
def Obligations.SnoopCases : Prop :=
  ∀ (b : Byte) (s : State),
    (b.extractLsb' 7 1 = 0b1#1 → snoop b s = { s with acUnk := false }) ∧
      (b.extractLsb' 6 2 = 0b01#2 → snoop b s = { s with acUnk := true }) ∧
      (b.extractLsb' 5 3 = 0b001#3 →
        snoop b s = { s with
          fsDl := b.getLsbD 4, fsN := b.getLsbD 3, fsF := b.getLsbD 2,
          desync := if b.getLsbD 4 then true else s.desync }) ∧
      (b.extractLsb' 4 4 = 0b0001#4 → snoop b s = s) ∧
      (b.extractLsb' 3 5 = 0b00001#5 → snoop b s = s) ∧
      (b.extractLsb' 2 6 = 0b000001#6 → snoop b s = { s with emId := b.getLsbD 1, emS := b.getLsbD 0 }) ∧
      (b.extractLsb' 1 7 = 0b0000001#7 → snoop b s = { s with acUnk := false }) ∧
      (b = 0x01 → snoop b s = { s with acUnk := false, emId := true }) ∧
      (b = 0x00 → snoop b s = s) ∧
      ∀ it : Item, (it.done = some (b, true) → snoopItem it s = s) ∧ (it.done = none → snoopItem it s = s) ∧
        (it.done = some (b, false) → snoopItem it s = snoop b s)

/-- 60_exceptions.md R201, 20_memory.md R66, 70_reset_and_hazards.md R245: a request of writes that was taken and whose
transactions all complete does end, with OK, having put exactly its plan on the bus in order, each gap waited out. -/
def Obligations.PlanRunsToEnd : Prop :=
  ∀ (i : Instr) (s t : State) (rest : List BusAnswer), AtRest s → exec i s = .next t → t.busy = true →
    (∀ it ∈ t.plan, it.kind ≠ .rawr) → AnswersOk s t.plan.length rest →
    ∃ u, Reaches t u ∧ u.busy = false ∧ u.tmr = 0 ∧ u.lastErr = .ok ∧
      u.responses = s.responses ++ [⟨.ok, []⟩] ∧ u.trace = s.trace ++ planTrace i s t.plan ∧ u.answers = rest ∧
      u.port = s.port ∧ u.rx = s.rx

/-- R210, R202, R203, 41_sequencer.md R141, 43_transport.md R182: at the first failure of any request, a raw read among them,
it stops: the transactions before it were made, the failing one is the last, none after it is issued, and the response has
the code and no bytes, after the gap. -/
def Obligations.FirstFailureEnds : Prop :=
  ∀ (i : Instr) (s t : State) (n : Nat) (it : Item) (rest : List BusAnswer), AtRest s → exec i s = .next t →
    t.busy = true → t.plan[n]? = some it → AnswersOk s n (.fail :: rest) →
    ∃ u code, Reaches t u ∧ u.busy = false ∧ u.tmr = 0 ∧
      code = (if isInit i then ResultCode.protocolFault else ResultCode.transportError) ∧ u.lastErr = code ∧
      u.responses = s.responses ++ [⟨code, []⟩] ∧
      u.trace = s.trace ++ planTrace i s (t.plan.take n) ++ [itemTx i it s .fail] ∧ u.answers = rest ∧
      u.pstate = (if isInit i then .faulted else s.pstate)

/-- 41_sequencer.md R143, 20_memory.md R74: an INIT whose 24 writes complete, from any PSTATE, ends READY, with the display in
step with the block (4-bit mode, high nibble next, enable line low) and everything else of it as R74 says.
What it says of the display's CGRAM is the model's choice (notes/assumptions/12.md, notes/assumptions/19.md). -/
def Obligations.InitEndsReady : Prop :=
  ∀ (s t : State) (rest : List BusAnswer), AtRest s → s.addrOk = true → exec (.init 0 0 []) s = .next t →
    AnswersOk s 24 rest →
    ∃ u, Reaches t u ∧ u.busy = false ∧ u.pstate = .ready ∧ u.desync = false ∧ u.fsDl = false ∧ u.fsN = true ∧
      u.fsF = false ∧ u.acUnk = false ∧ u.emId = true ∧ u.emS = false ∧ u.bl = s.bl ∧ u.cgValid = s.cgValid ∧
      u.responses = s.responses ++ [⟨.ok, []⟩] ∧ InStep u.cfg u.display ∧ u.display.twoLine = some true ∧
      u.display.don = some true ∧ u.display.incr = some true ∧ u.display.shift = some false ∧
      u.display.tgt = some .dd ∧ u.display.ac = some 0 ∧ u.display.cgram = s.display.cgram ∧
      u.display.cgKnown = s.display.cgKnown ∧
      ∀ a, a < 128 → memRead u.display.ddram a = some 0x20

/-- R144: an INIT whose write fails ends FAULTED with ProtocolFault, out of step, and the rest of its plan is not
performed. -/
def Obligations.InitFailureFaults : Prop :=
  ∀ (s t : State) (n : Nat) (rest : List BusAnswer), AtRest s → s.addrOk = true →
    exec (.init 0 0 []) s = .next t → n < 24 → AnswersOk s n (.fail :: rest) →
    ∃ u, Reaches t u ∧ u.busy = false ∧ u.pstate = .faulted ∧ u.desync = true ∧ u.acUnk = true ∧
      u.lastErr = .protocolFault ∧ u.responses = s.responses ++ [⟨.protocolFault, []⟩] ∧
      u.trace.length = s.trace.length + n + 1

/-- 42_cgram.md R172, R173: a load that completes sets CG_VALID and leaves AC_UNK set; one that fails clears it, sets DESYNC
and AC_UNK, and leaves PSTATE. -/
def Obligations.GlyphLoadOutcome : Prop :=
  ∀ (s t : State) (p : List Byte) (rest : List BusAnswer), AtRest s → s.addrOk = true → s.pstate = .ready →
    p.length = 64 → exec (.ldglyph 0 0 p) s = .next t →
    (AnswersOk s 288 rest →
        ∃ u, Reaches t u ∧ u.busy = false ∧ u.cgValid = true ∧ u.acUnk = true ∧ u.lastErr = .ok) ∧
      ∀ n, n < 288 → AnswersOk s n (.fail :: rest) →
        ∃ u, Reaches t u ∧ u.busy = false ∧ u.cgValid = false ∧ u.acUnk = true ∧ u.desync = true ∧
          u.lastErr = .transportError ∧ u.pstate = .ready

/-- 43_transport.md R186 to R188: the raw reads respond with what the environment sent; a block read begins with its count,
and a count above BLOCK_MAX is a failure. -/
def Obligations.RawReadsRespond : Prop :=
  ∀ (s : State) (reg v cnt : Byte) (data : List Byte) (rest : List BusAnswer), AtRest s → s.addrOk = true →
    (s.answers = .ok [v] :: rest →
        ∀ i, i = Instr.xrb 0 0 [] ∨ i = Instr.xrr 0 reg [] →
          ∃ t u, exec i s = .next t ∧ Reaches t u ∧ u.busy = false ∧ u.responses = s.responses ++ [⟨.ok, [v]⟩]) ∧
      (s.answers = .ok (cnt :: data) :: rest → s.cfg.readBlockMode = .counted → data.length = cnt.toNat →
        ∃ t u, exec (.xrblk 0 reg []) s = .next t ∧ Reaches t u ∧ u.busy = false ∧
          u.responses = s.responses ++
            [if cnt.toNat ≤ s.cfg.blockMax then ⟨.ok, cnt :: data⟩ else ⟨.transportError, []⟩]) ∧
      (s.answers = .ok data :: rest → s.cfg.readBlockMode = .fixed → data.length = s.cfg.readBlockLen →
        ∃ t u, exec (.xrblk 0 reg []) s = .next t ∧ Reaches t u ∧ u.busy = false ∧
          u.responses = s.responses ++ [⟨.ok, BitVec.ofNat 8 s.cfg.readBlockLen :: data⟩])

/-! ### Rules of the whole machine -/

/-- R190: no step of a raw transport request, from its acceptance to its response, changes PSTATE, BL, the snooped fields,
AC_UNK, DESYNC or CG_VALID. -/
def Obligations.TransportLeavesProtocolState : Prop :=
  ∀ (s t : State) (i : Instr), Invariant s → s.rst = false → currentInstr s = some i → isTransport i = true →
    step s = .next t → SameProtocolState s t

/-- 10_state.md R21, 41_sequencer.md R145: PSTATE moves only through INIT, from any value to INITIALIZING at its acceptance,
from there to READY or FAULTED with its response, and by reset to UNINIT.
That FAULTED comes only with the response, and not at the failing item as R141 and R144 read in order say, is the model's
reading of R145 and ruling D35 (notes/assumptions/16.md). -/
def Obligations.ProtocolStateMoves : Prop :=
  ∀ s t : State, Invariant s → step s = .next t → t.pstate ≠ s.pstate →
    (s.rst = true ∧ t.pstate = .uninit) ∨
      (s.rst = false ∧ (∃ i, currentInstr s = some i ∧ isInit i = true) ∧
        (s.busy = false ∧ t.pstate = .initializing ∨
          s.pstate = .initializing ∧ s.busy = true ∧ t.busy = false ∧
            (t.pstate = .ready ∧ t.responses = s.responses ++ [⟨.ok, s.rdata⟩] ∨
              t.pstate = .faulted ∧ t.responses = s.responses ++ [⟨.protocolFault, []⟩])))

/-- 10_state.md R26: DESYNC is cleared only when an INIT completes. -/
def Obligations.DesyncClearedByInitOnly : Prop :=
  ∀ s t : State, Invariant s → step s = .next t → s.desync = true → t.desync = false →
    s.pstate = .initializing ∧ t.pstate = .ready ∧ t.busy = false

/-- 10_state.md R28: CG_VALID is set only when an LDGLYPH completes, and cleared only when one fails or by reset. -/
def Obligations.GlyphFlagOwner : Prop :=
  ∀ s t : State, Invariant s → step s = .next t → t.cgValid ≠ s.cgValid →
    s.rst = true ∧ t.cgValid = false ∨
      ∃ a b p, s.busy = true ∧ currentInstr s = some (.ldglyph a b p) ∧
        (t.cgValid = true ∧ t.busy = false ∧ t.lastErr = .ok ∨ t.cgValid = false ∧ t.aborting = true)

/-- 10_state.md R29, 30_encoding.md R91: LAST_ERR is written exactly with a response, and is its code; a response with an
error has no bytes; giving it ends the request. -/
def Obligations.LastErrIsResponseCode : Prop :=
  ∀ s t : State, s.rst = false → step s = .next t →
    (t.responses = s.responses ∧ t.lastErr = s.lastErr) ∨
      ∃ bs, t.responses = s.responses ++ [⟨t.lastErr, bs⟩] ∧ (t.lastErr ≠ .ok → bs = []) ∧ t.busy = false

/-- 10_state.md R34, 60_exceptions.md R200: the fields of the status word and their codes; bits 31:25 read 0. -/
def Obligations.StatusWordFields : Prop :=
  ∀ s : State,
    ((statusWord s).extractLsb' 0 2).toNat =
        (match s.pstate with
        | .uninit => 0
        | .initializing => 1
        | .ready => 2
        | .faulted => 3) ∧
      (statusWord s).getLsbD 2 = s.bl ∧ (statusWord s).getLsbD 3 = s.emId ∧ (statusWord s).getLsbD 4 = s.emS ∧
      (statusWord s).getLsbD 5 = s.fsDl ∧ (statusWord s).getLsbD 6 = s.fsN ∧ (statusWord s).getLsbD 7 = s.fsF ∧
      ((statusWord s).extractLsb' 8 4).toNat =
        (match s.lastErr with
        | .ok => 0
        | .transportError => 1
        | .protocolFault => 2
        | .addressResolutionError => 3
        | .notReady => 4
        | .illegalOp => 5
        | .badOperand => 6) ∧
      (statusWord s).getLsbD 12 = s.cgValid ∧ (statusWord s).getLsbD 13 = s.acUnk ∧
      (statusWord s).getLsbD 14 = s.addrOk ∧ (statusWord s).getLsbD 15 = s.desync ∧
      (statusWord s).extractLsb' 16 7 = s.addr ∧ (statusWord s).extractLsb' 23 1 = s.busSel ∧
      (statusWord s).getLsbD 24 = s.busy ∧ (statusWord s).extractLsb' 25 7 = 0#7

/-! ### The reference display -/

/-- 20_memory.md R76 to R81: the commands of the reference display, every class of them.
The spec marks these rules [from general knowledge, not in source]; that the byte 0x00, which is of no class, does nothing
is the model's reading (notes/assumptions/11.md). -/
def Obligations.DisplayCommands : Prop :=
  ∀ (b : Byte) (d : Display),
    (b = 0x01 → displayCommand b d =
        { d with ddram := memFill 128 0x20#8, ac := some 0, tgt := some .dd, incr := some true }) ∧
      (b &&& 0xFE = 0x02 → displayCommand b d = { d with ac := some 0, tgt := some .dd }) ∧
      (b &&& 0xFC = 0x04 → displayCommand b d =
        { d with incr := some (b.getLsbD 1), shift := some (b.getLsbD 0) }) ∧
      (b &&& 0xF8 = 0x08 → displayCommand b d = { d with don := some (b.getLsbD 2) }) ∧
      (b &&& 0xF0 = 0x10 → displayCommand b d = { d with ac := if b.getLsbD 3 then d.ac else none }) ∧
      (b &&& 0xE0 = 0x20 → displayCommand b d =
        { d with twoLine := some (b.getLsbD 3), mode := if b.getLsbD 4 then .unknown else d.mode }) ∧
      (b &&& 0xC0 = 0x40 → displayCommand b d =
        { d with ac := some ((b.extractLsb' 0 6).setWidth 7), tgt := some .cg }) ∧
      (b &&& 0x80 = 0x80 → displayCommand b d = { d with ac := some (b.extractLsb' 0 7), tgt := some .dd }) ∧
      (b = 0x00 → displayCommand b d = d) ∧
      ∀ a, memRead (memFill 128 0x20#8) a = if a < 128 then some 0x20 else none

/-- R82, R83, R71: a data byte is stored at AC in the memory TGT names, AC advances, and every other entry of both memories
reads as before; what depends on an unknown becomes unknown.
The spec marks the valid ranges and the modulo-64 advance [from general knowledge, not in source]; what an unknown AC, TGT,
ID or N makes unknown is the model's reading of R71 (notes/assumptions/18.md). -/
def Obligations.DisplayDataStored : Prop :=
  (∀ (b : Byte) (d : Display) (a : BitVec 7) (two up : Bool), d.ac = some a → d.twoLine = some two →
      d.incr = some up →
      (d.tgt = some .dd →
          memRead (displayData b d).ddram a.toNat = some b ∧
            (∀ x, x ≠ a.toNat → memRead (displayData b d).ddram x = memRead d.ddram x) ∧
            (displayData b d).cgram = d.cgram ∧
            ∀ a' : BitVec 7, a' = (if up then a + 1 else a - 1) →
              (displayData b d).ac =
                if (if two then
                    (a.toNat ≤ 0x27 ∧ a'.toNat ≤ 0x27) ∨
                      (0x40 ≤ a.toNat ∧ a.toNat ≤ 0x67 ∧ 0x40 ≤ a'.toNat ∧ a'.toNat ≤ 0x67)
                  else a.toNat ≤ 0x4F ∧ a'.toNat ≤ 0x4F)
                then some a' else none) ∧
        (d.tgt = some .cg →
          memRead (displayData b d).cgram (a.toNat % 64) = some (b.extractLsb' 0 5) ∧
            (∀ x, x ≠ a.toNat % 64 → memRead (displayData b d).cgram x = memRead d.cgram x) ∧
            (displayData b d).ddram = d.ddram ∧
            ∃ a', (displayData b d).ac = some a' ∧ a'.toNat / 64 = a.toNat / 64 ∧
              a'.toNat % 64 = (a.toNat + if up then 1 else 63) % 64)) ∧
    (∀ (b : Byte) (d : Display), (displayData b d).cgKnown = d.cgKnown ∧
      ∀ x, glyphEntry d x = if d.cgKnown then memRead d.cgram x else none) ∧
    (∀ (b : Byte) (d : Display) (a : BitVec 7), d.tgt = some .dd → d.ac = some a → (d.incr = none ∨ d.twoLine = none) →
      displayData b d = { d with ddram := memWrite d.ddram a.toNat b, ac := none }) ∧
    (∀ (b : Byte) (d : Display) (a : BitVec 7), d.tgt = some .cg → d.ac = some a → d.incr = none →
      displayData b d = { d with cgram := memWrite d.cgram (a.toNat % 64) (b.extractLsb' 0 5), ac := none }) ∧
    (∀ (b : Byte) (d : Display), d.tgt = some .dd → d.ac = none → displayData b d = { d with ddram := [] }) ∧
    (∀ (b : Byte) (d : Display), d.tgt = some .cg → d.ac = none → displayData b d = { d with cgram := [] }) ∧
    ∀ (b : Byte) (d : Display), d.tgt = none → displayData b d = { d with ddram := [], cgram := [], ac := none }

/-- R72, R73, R75, R130: the four writes of a full byte make a display that is in step execute exactly that byte with its
select, and leave it expecting the next byte, the enable line low.
The spec marks R73 [from general knowledge, not in source]; whose strobes the display follows is the model's reading of U23
(notes/assumptions/8.md). -/
def Obligations.ByteReachesDisplay : Prop :=
  ∀ (c : Config) (i : Instr) (bl rs : Bool) (b : Byte) (d : Display), configLegal c = true → InStep c d →
    followsStrobe i = true →
    ∃ e, latchAll c i (byteItems c bl b rs) d = e ∧
      e = { displayByte rs b d with q := e.q, phase := some .hi, hn := e.hn, hrs := e.hrs } ∧
      e.q = some (expByte c (lowNibble b) rs false bl)

/-- 42_cgram.md R172, 20_memory.md R84: the 288 writes of LDGLYPH leave every row of every slot in CGRAM, known once the load
is complete, the address counter wrapped to 0, and DDRAM as it was, on a display in step that increments (ID = 1, as INIT
leaves it; nothing is said here for ID = 0 or an unknown ID).
The spec marks R172's CGRAM contents [derived]; whose strobes the display follows and when a load counts as complete for it
are the model's readings (notes/assumptions/8.md, notes/assumptions/19.md). -/
def Obligations.GlyphsReachCgram : Prop :=
  ∀ (c : Config) (bl : Bool) (p : List Byte) (d : Display), configLegal c = true → InStep c d →
    d.incr = some true → p.length = 64 →
    ∃ e, displayLoadDone (latchAll c (.ldglyph 0 0 p) (glyphPlan c bl p) d) = e ∧
      (∀ k r, k < 8 → r < 8 →
        glyphEntry e (8 * k + r) = some ((p.getD (8 * k + r) 0 &&& 0x1F).extractLsb' 0 5)) ∧
      e.ac = some 0 ∧ e.tgt = some .cg ∧ e.ddram = d.ddram ∧ InStep c e

/-- R84, R72, U1: after a failed write everything of the display is unknown; its mode is known again only when an INIT
completes, and CGRAM only when an LDGLYPH completes, whatever was written to it in between.
That everything of the display is unknown, and when a load counts as complete for it, are the model's readings of R84
(notes/assumptions/8.md, notes/assumptions/19.md). -/
def Obligations.FailedWriteUnknown : Prop :=
  (∀ (s : State) (r : Request) (it : Item) (rest : List BusAnswer), OnBus s r it → s.answers = .fail :: rest →
      it.kind ≠ .rawr →
      ∃ t, step s = .next t ∧ t.display = Display.allUnknown ∧
        (∀ a, memRead t.display.ddram a = none) ∧ ∀ a, glyphEntry t.display a = none) ∧
    (∀ d : Display, d.cgKnown = false → ∀ a, glyphEntry d a = none) ∧
    (∀ s t : State, step s = .next t → s.display.cgKnown = false → t.display.cgKnown = true →
      s.rst = false ∧ s.busy = true ∧ t.busy = false ∧ t.cgValid = true ∧
        ∃ a b p, currentInstr s = some (.ldglyph a b p)) ∧
    ∀ s t : State, step s = .next t → s.display.mode = .unknown → t.display.mode = .four →
      s.rst = false ∧ s.busy = true ∧ t.busy = false ∧ t.pstate = .ready ∧
        ∃ a b p, currentInstr s = some (.init a b p)
end

