-- ==== Sys2Proof/Laws/State.lean ====
section
/-! SUPPORT. One lemma per field for each named update of State, so that no later proof unfolds a record update. -/

namespace Sys2Proof.Machine

/-! ### endRequest: what it leaves unchanged -/

@[simp] theorem endRequest_cfg (k : ResultCode) (bs : List Byte) (s : State) : (endRequest k bs s).cfg = s.cfg := rfl
@[simp] theorem endRequest_pstate (k : ResultCode) (bs : List Byte) (s : State) : (endRequest k bs s).pstate = s.pstate := rfl
@[simp] theorem endRequest_bl (k : ResultCode) (bs : List Byte) (s : State) : (endRequest k bs s).bl = s.bl := rfl
@[simp] theorem endRequest_emId (k : ResultCode) (bs : List Byte) (s : State) : (endRequest k bs s).emId = s.emId := rfl
@[simp] theorem endRequest_emS (k : ResultCode) (bs : List Byte) (s : State) : (endRequest k bs s).emS = s.emS := rfl
@[simp] theorem endRequest_fsDl (k : ResultCode) (bs : List Byte) (s : State) : (endRequest k bs s).fsDl = s.fsDl := rfl
@[simp] theorem endRequest_fsN (k : ResultCode) (bs : List Byte) (s : State) : (endRequest k bs s).fsN = s.fsN := rfl
@[simp] theorem endRequest_fsF (k : ResultCode) (bs : List Byte) (s : State) : (endRequest k bs s).fsF = s.fsF := rfl
@[simp] theorem endRequest_acUnk (k : ResultCode) (bs : List Byte) (s : State) : (endRequest k bs s).acUnk = s.acUnk := rfl
@[simp] theorem endRequest_desync (k : ResultCode) (bs : List Byte) (s : State) : (endRequest k bs s).desync = s.desync := rfl
@[simp] theorem endRequest_cgValid (k : ResultCode) (bs : List Byte) (s : State) : (endRequest k bs s).cgValid = s.cgValid := rfl
@[simp] theorem endRequest_addr (k : ResultCode) (bs : List Byte) (s : State) : (endRequest k bs s).addr = s.addr := rfl
@[simp] theorem endRequest_addrOk (k : ResultCode) (bs : List Byte) (s : State) : (endRequest k bs s).addrOk = s.addrOk := rfl
@[simp] theorem endRequest_busSel (k : ResultCode) (bs : List Byte) (s : State) : (endRequest k bs s).busSel = s.busSel := rfl
@[simp] theorem endRequest_plan (k : ResultCode) (bs : List Byte) (s : State) : (endRequest k bs s).plan = s.plan := rfl
@[simp] theorem endRequest_seq (k : ResultCode) (bs : List Byte) (s : State) : (endRequest k bs s).seq = s.seq := rfl
@[simp] theorem endRequest_tmr (k : ResultCode) (bs : List Byte) (s : State) : (endRequest k bs s).tmr = s.tmr := rfl
@[simp] theorem endRequest_req (k : ResultCode) (bs : List Byte) (s : State) : (endRequest k bs s).req = s.req := rfl
@[simp] theorem endRequest_flight (k : ResultCode) (bs : List Byte) (s : State) : (endRequest k bs s).flight = s.flight := rfl
@[simp] theorem endRequest_rdata (k : ResultCode) (bs : List Byte) (s : State) : (endRequest k bs s).rdata = s.rdata := rfl
@[simp] theorem endRequest_rst (k : ResultCode) (bs : List Byte) (s : State) : (endRequest k bs s).rst = s.rst := rfl
@[simp] theorem endRequest_port (k : ResultCode) (bs : List Byte) (s : State) : (endRequest k bs s).port = s.port := rfl
@[simp] theorem endRequest_rx (k : ResultCode) (bs : List Byte) (s : State) : (endRequest k bs s).rx = s.rx := rfl
@[simp] theorem endRequest_answers (k : ResultCode) (bs : List Byte) (s : State) : (endRequest k bs s).answers = s.answers := rfl
@[simp] theorem endRequest_probes (k : ResultCode) (bs : List Byte) (s : State) : (endRequest k bs s).probes = s.probes := rfl
@[simp] theorem endRequest_draws (k : ResultCode) (bs : List Byte) (s : State) : (endRequest k bs s).draws = s.draws := rfl
@[simp] theorem endRequest_trace (k : ResultCode) (bs : List Byte) (s : State) : (endRequest k bs s).trace = s.trace := rfl
@[simp] theorem endRequest_display (k : ResultCode) (bs : List Byte) (s : State) : (endRequest k bs s).display = s.display := rfl

@[simp] theorem endRequest_lastErr (k : ResultCode) (bs : List Byte) (s : State) : (endRequest k bs s).lastErr = k := rfl
@[simp] theorem endRequest_responses (k : ResultCode) (bs : List Byte) (s : State) :
    (endRequest k bs s).responses = s.responses ++ [{ code := k, bytes := bs }] := rfl
@[simp] theorem endRequest_busy (k : ResultCode) (bs : List Byte) (s : State) : (endRequest k bs s).busy = false := rfl
@[simp] theorem endRequest_aborting (k : ResultCode) (bs : List Byte) (s : State) :
    (endRequest k bs s).aborting = false := rfl

/-! ### dropAnswer: what it leaves unchanged -/

@[simp] theorem dropAnswer_cfg (s : State) : (dropAnswer s).cfg = s.cfg := rfl
@[simp] theorem dropAnswer_pstate (s : State) : (dropAnswer s).pstate = s.pstate := rfl
@[simp] theorem dropAnswer_bl (s : State) : (dropAnswer s).bl = s.bl := rfl
@[simp] theorem dropAnswer_emId (s : State) : (dropAnswer s).emId = s.emId := rfl
@[simp] theorem dropAnswer_emS (s : State) : (dropAnswer s).emS = s.emS := rfl
@[simp] theorem dropAnswer_fsDl (s : State) : (dropAnswer s).fsDl = s.fsDl := rfl
@[simp] theorem dropAnswer_fsN (s : State) : (dropAnswer s).fsN = s.fsN := rfl
@[simp] theorem dropAnswer_fsF (s : State) : (dropAnswer s).fsF = s.fsF := rfl
@[simp] theorem dropAnswer_acUnk (s : State) : (dropAnswer s).acUnk = s.acUnk := rfl
@[simp] theorem dropAnswer_desync (s : State) : (dropAnswer s).desync = s.desync := rfl
@[simp] theorem dropAnswer_cgValid (s : State) : (dropAnswer s).cgValid = s.cgValid := rfl
@[simp] theorem dropAnswer_lastErr (s : State) : (dropAnswer s).lastErr = s.lastErr := rfl
@[simp] theorem dropAnswer_addr (s : State) : (dropAnswer s).addr = s.addr := rfl
@[simp] theorem dropAnswer_addrOk (s : State) : (dropAnswer s).addrOk = s.addrOk := rfl
@[simp] theorem dropAnswer_busSel (s : State) : (dropAnswer s).busSel = s.busSel := rfl
@[simp] theorem dropAnswer_busy (s : State) : (dropAnswer s).busy = s.busy := rfl
@[simp] theorem dropAnswer_plan (s : State) : (dropAnswer s).plan = s.plan := rfl
@[simp] theorem dropAnswer_seq (s : State) : (dropAnswer s).seq = s.seq := rfl
@[simp] theorem dropAnswer_tmr (s : State) : (dropAnswer s).tmr = s.tmr := rfl
@[simp] theorem dropAnswer_req (s : State) : (dropAnswer s).req = s.req := rfl
@[simp] theorem dropAnswer_flight (s : State) : (dropAnswer s).flight = s.flight := rfl
@[simp] theorem dropAnswer_aborting (s : State) : (dropAnswer s).aborting = s.aborting := rfl
@[simp] theorem dropAnswer_rdata (s : State) : (dropAnswer s).rdata = s.rdata := rfl
@[simp] theorem dropAnswer_rst (s : State) : (dropAnswer s).rst = s.rst := rfl
@[simp] theorem dropAnswer_port (s : State) : (dropAnswer s).port = s.port := rfl
@[simp] theorem dropAnswer_rx (s : State) : (dropAnswer s).rx = s.rx := rfl
@[simp] theorem dropAnswer_probes (s : State) : (dropAnswer s).probes = s.probes := rfl
@[simp] theorem dropAnswer_trace (s : State) : (dropAnswer s).trace = s.trace := rfl
@[simp] theorem dropAnswer_responses (s : State) : (dropAnswer s).responses = s.responses := rfl
@[simp] theorem dropAnswer_display (s : State) : (dropAnswer s).display = s.display := rfl

@[simp] theorem dropAnswer_answers (s : State) : (dropAnswer s).answers = s.answers.tail := rfl
@[simp] theorem dropAnswer_draws (s : State) : (dropAnswer s).draws = s.draws + 1 := rfl

/-! ### snoop: what it leaves unchanged -/

@[simp] theorem snoop_cfg (b : Byte) (s : State) : (snoop b s).cfg = s.cfg := by
  unfold snoop; split_ifs <;> rfl
@[simp] theorem snoop_pstate (b : Byte) (s : State) : (snoop b s).pstate = s.pstate := by
  unfold snoop; split_ifs <;> rfl
@[simp] theorem snoop_bl (b : Byte) (s : State) : (snoop b s).bl = s.bl := by
  unfold snoop; split_ifs <;> rfl
@[simp] theorem snoop_cgValid (b : Byte) (s : State) : (snoop b s).cgValid = s.cgValid := by
  unfold snoop; split_ifs <;> rfl
@[simp] theorem snoop_lastErr (b : Byte) (s : State) : (snoop b s).lastErr = s.lastErr := by
  unfold snoop; split_ifs <;> rfl
@[simp] theorem snoop_addr (b : Byte) (s : State) : (snoop b s).addr = s.addr := by
  unfold snoop; split_ifs <;> rfl
@[simp] theorem snoop_addrOk (b : Byte) (s : State) : (snoop b s).addrOk = s.addrOk := by
  unfold snoop; split_ifs <;> rfl
@[simp] theorem snoop_busSel (b : Byte) (s : State) : (snoop b s).busSel = s.busSel := by
  unfold snoop; split_ifs <;> rfl
@[simp] theorem snoop_busy (b : Byte) (s : State) : (snoop b s).busy = s.busy := by
  unfold snoop; split_ifs <;> rfl
@[simp] theorem snoop_plan (b : Byte) (s : State) : (snoop b s).plan = s.plan := by
  unfold snoop; split_ifs <;> rfl
@[simp] theorem snoop_seq (b : Byte) (s : State) : (snoop b s).seq = s.seq := by
  unfold snoop; split_ifs <;> rfl
@[simp] theorem snoop_tmr (b : Byte) (s : State) : (snoop b s).tmr = s.tmr := by
  unfold snoop; split_ifs <;> rfl
@[simp] theorem snoop_req (b : Byte) (s : State) : (snoop b s).req = s.req := by
  unfold snoop; split_ifs <;> rfl
@[simp] theorem snoop_flight (b : Byte) (s : State) : (snoop b s).flight = s.flight := by
  unfold snoop; split_ifs <;> rfl
@[simp] theorem snoop_aborting (b : Byte) (s : State) : (snoop b s).aborting = s.aborting := by
  unfold snoop; split_ifs <;> rfl
@[simp] theorem snoop_rdata (b : Byte) (s : State) : (snoop b s).rdata = s.rdata := by
  unfold snoop; split_ifs <;> rfl
@[simp] theorem snoop_rst (b : Byte) (s : State) : (snoop b s).rst = s.rst := by
  unfold snoop; split_ifs <;> rfl
@[simp] theorem snoop_port (b : Byte) (s : State) : (snoop b s).port = s.port := by
  unfold snoop; split_ifs <;> rfl
@[simp] theorem snoop_rx (b : Byte) (s : State) : (snoop b s).rx = s.rx := by
  unfold snoop; split_ifs <;> rfl
@[simp] theorem snoop_answers (b : Byte) (s : State) : (snoop b s).answers = s.answers := by
  unfold snoop; split_ifs <;> rfl
@[simp] theorem snoop_probes (b : Byte) (s : State) : (snoop b s).probes = s.probes := by
  unfold snoop; split_ifs <;> rfl
@[simp] theorem snoop_draws (b : Byte) (s : State) : (snoop b s).draws = s.draws := by
  unfold snoop; split_ifs <;> rfl
@[simp] theorem snoop_trace (b : Byte) (s : State) : (snoop b s).trace = s.trace := by
  unfold snoop; split_ifs <;> rfl
@[simp] theorem snoop_responses (b : Byte) (s : State) : (snoop b s).responses = s.responses := by
  unfold snoop; split_ifs <;> rfl
@[simp] theorem snoop_display (b : Byte) (s : State) : (snoop b s).display = s.display := by
  unfold snoop; split_ifs <;> rfl

/-! ### snoopItem: what it leaves unchanged -/

@[simp] theorem snoopItem_cfg (it : Item) (s : State) : (snoopItem it s).cfg = s.cfg := by
  unfold snoopItem; split <;> simp
@[simp] theorem snoopItem_pstate (it : Item) (s : State) : (snoopItem it s).pstate = s.pstate := by
  unfold snoopItem; split <;> simp
@[simp] theorem snoopItem_bl (it : Item) (s : State) : (snoopItem it s).bl = s.bl := by
  unfold snoopItem; split <;> simp
@[simp] theorem snoopItem_cgValid (it : Item) (s : State) : (snoopItem it s).cgValid = s.cgValid := by
  unfold snoopItem; split <;> simp
@[simp] theorem snoopItem_lastErr (it : Item) (s : State) : (snoopItem it s).lastErr = s.lastErr := by
  unfold snoopItem; split <;> simp
@[simp] theorem snoopItem_addr (it : Item) (s : State) : (snoopItem it s).addr = s.addr := by
  unfold snoopItem; split <;> simp
@[simp] theorem snoopItem_addrOk (it : Item) (s : State) : (snoopItem it s).addrOk = s.addrOk := by
  unfold snoopItem; split <;> simp
@[simp] theorem snoopItem_busSel (it : Item) (s : State) : (snoopItem it s).busSel = s.busSel := by
  unfold snoopItem; split <;> simp
@[simp] theorem snoopItem_busy (it : Item) (s : State) : (snoopItem it s).busy = s.busy := by
  unfold snoopItem; split <;> simp
@[simp] theorem snoopItem_plan (it : Item) (s : State) : (snoopItem it s).plan = s.plan := by
  unfold snoopItem; split <;> simp
@[simp] theorem snoopItem_seq (it : Item) (s : State) : (snoopItem it s).seq = s.seq := by
  unfold snoopItem; split <;> simp
@[simp] theorem snoopItem_tmr (it : Item) (s : State) : (snoopItem it s).tmr = s.tmr := by
  unfold snoopItem; split <;> simp
@[simp] theorem snoopItem_req (it : Item) (s : State) : (snoopItem it s).req = s.req := by
  unfold snoopItem; split <;> simp
@[simp] theorem snoopItem_flight (it : Item) (s : State) : (snoopItem it s).flight = s.flight := by
  unfold snoopItem; split <;> simp
@[simp] theorem snoopItem_aborting (it : Item) (s : State) : (snoopItem it s).aborting = s.aborting := by
  unfold snoopItem; split <;> simp
@[simp] theorem snoopItem_rdata (it : Item) (s : State) : (snoopItem it s).rdata = s.rdata := by
  unfold snoopItem; split <;> simp
@[simp] theorem snoopItem_rst (it : Item) (s : State) : (snoopItem it s).rst = s.rst := by
  unfold snoopItem; split <;> simp
@[simp] theorem snoopItem_port (it : Item) (s : State) : (snoopItem it s).port = s.port := by
  unfold snoopItem; split <;> simp
@[simp] theorem snoopItem_rx (it : Item) (s : State) : (snoopItem it s).rx = s.rx := by
  unfold snoopItem; split <;> simp
@[simp] theorem snoopItem_answers (it : Item) (s : State) : (snoopItem it s).answers = s.answers := by
  unfold snoopItem; split <;> simp
@[simp] theorem snoopItem_probes (it : Item) (s : State) : (snoopItem it s).probes = s.probes := by
  unfold snoopItem; split <;> simp
@[simp] theorem snoopItem_draws (it : Item) (s : State) : (snoopItem it s).draws = s.draws := by
  unfold snoopItem; split <;> simp
@[simp] theorem snoopItem_trace (it : Item) (s : State) : (snoopItem it s).trace = s.trace := by
  unfold snoopItem; split <;> simp
@[simp] theorem snoopItem_responses (it : Item) (s : State) : (snoopItem it s).responses = s.responses := by
  unfold snoopItem; split <;> simp
@[simp] theorem snoopItem_display (it : Item) (s : State) : (snoopItem it s).display = s.display := by
  unfold snoopItem; split <;> simp

/-! ### strobeFailed: what it leaves unchanged -/

@[simp] theorem strobeFailed_cfg (k : Kind) (s : State) : (strobeFailed k s).cfg = s.cfg := by
  cases k <;> rfl
@[simp] theorem strobeFailed_pstate (k : Kind) (s : State) : (strobeFailed k s).pstate = s.pstate := by
  cases k <;> rfl
@[simp] theorem strobeFailed_bl (k : Kind) (s : State) : (strobeFailed k s).bl = s.bl := by
  cases k <;> rfl
@[simp] theorem strobeFailed_emId (k : Kind) (s : State) : (strobeFailed k s).emId = s.emId := by
  cases k <;> rfl
@[simp] theorem strobeFailed_emS (k : Kind) (s : State) : (strobeFailed k s).emS = s.emS := by
  cases k <;> rfl
@[simp] theorem strobeFailed_fsDl (k : Kind) (s : State) : (strobeFailed k s).fsDl = s.fsDl := by
  cases k <;> rfl
@[simp] theorem strobeFailed_fsN (k : Kind) (s : State) : (strobeFailed k s).fsN = s.fsN := by
  cases k <;> rfl
@[simp] theorem strobeFailed_fsF (k : Kind) (s : State) : (strobeFailed k s).fsF = s.fsF := by
  cases k <;> rfl
@[simp] theorem strobeFailed_cgValid (k : Kind) (s : State) : (strobeFailed k s).cgValid = s.cgValid := by
  cases k <;> rfl
@[simp] theorem strobeFailed_lastErr (k : Kind) (s : State) : (strobeFailed k s).lastErr = s.lastErr := by
  cases k <;> rfl
@[simp] theorem strobeFailed_addr (k : Kind) (s : State) : (strobeFailed k s).addr = s.addr := by
  cases k <;> rfl
@[simp] theorem strobeFailed_addrOk (k : Kind) (s : State) : (strobeFailed k s).addrOk = s.addrOk := by
  cases k <;> rfl
@[simp] theorem strobeFailed_busSel (k : Kind) (s : State) : (strobeFailed k s).busSel = s.busSel := by
  cases k <;> rfl
@[simp] theorem strobeFailed_busy (k : Kind) (s : State) : (strobeFailed k s).busy = s.busy := by
  cases k <;> rfl
@[simp] theorem strobeFailed_plan (k : Kind) (s : State) : (strobeFailed k s).plan = s.plan := by
  cases k <;> rfl
@[simp] theorem strobeFailed_seq (k : Kind) (s : State) : (strobeFailed k s).seq = s.seq := by
  cases k <;> rfl
@[simp] theorem strobeFailed_tmr (k : Kind) (s : State) : (strobeFailed k s).tmr = s.tmr := by
  cases k <;> rfl
@[simp] theorem strobeFailed_req (k : Kind) (s : State) : (strobeFailed k s).req = s.req := by
  cases k <;> rfl
@[simp] theorem strobeFailed_flight (k : Kind) (s : State) : (strobeFailed k s).flight = s.flight := by
  cases k <;> rfl
@[simp] theorem strobeFailed_aborting (k : Kind) (s : State) : (strobeFailed k s).aborting = s.aborting := by
  cases k <;> rfl
@[simp] theorem strobeFailed_rdata (k : Kind) (s : State) : (strobeFailed k s).rdata = s.rdata := by
  cases k <;> rfl
@[simp] theorem strobeFailed_rst (k : Kind) (s : State) : (strobeFailed k s).rst = s.rst := by
  cases k <;> rfl
@[simp] theorem strobeFailed_port (k : Kind) (s : State) : (strobeFailed k s).port = s.port := by
  cases k <;> rfl
@[simp] theorem strobeFailed_rx (k : Kind) (s : State) : (strobeFailed k s).rx = s.rx := by
  cases k <;> rfl
@[simp] theorem strobeFailed_answers (k : Kind) (s : State) : (strobeFailed k s).answers = s.answers := by
  cases k <;> rfl
@[simp] theorem strobeFailed_probes (k : Kind) (s : State) : (strobeFailed k s).probes = s.probes := by
  cases k <;> rfl
@[simp] theorem strobeFailed_draws (k : Kind) (s : State) : (strobeFailed k s).draws = s.draws := by
  cases k <;> rfl
@[simp] theorem strobeFailed_trace (k : Kind) (s : State) : (strobeFailed k s).trace = s.trace := by
  cases k <;> rfl
@[simp] theorem strobeFailed_responses (k : Kind) (s : State) : (strobeFailed k s).responses = s.responses := by
  cases k <;> rfl
@[simp] theorem strobeFailed_display (k : Kind) (s : State) : (strobeFailed k s).display = s.display := by
  cases k <;> rfl

/-! ### onFail: what it leaves unchanged -/

@[simp] theorem onFail_cfg (i : Instr) (s : State) : (onFail i s).cfg = s.cfg := by
  cases i <;> rfl
@[simp] theorem onFail_pstate (i : Instr) (s : State) : (onFail i s).pstate = s.pstate := by
  cases i <;> rfl
@[simp] theorem onFail_bl (i : Instr) (s : State) : (onFail i s).bl = s.bl := by
  cases i <;> rfl
@[simp] theorem onFail_emId (i : Instr) (s : State) : (onFail i s).emId = s.emId := by
  cases i <;> rfl
@[simp] theorem onFail_emS (i : Instr) (s : State) : (onFail i s).emS = s.emS := by
  cases i <;> rfl
@[simp] theorem onFail_fsDl (i : Instr) (s : State) : (onFail i s).fsDl = s.fsDl := by
  cases i <;> rfl
@[simp] theorem onFail_fsN (i : Instr) (s : State) : (onFail i s).fsN = s.fsN := by
  cases i <;> rfl
@[simp] theorem onFail_fsF (i : Instr) (s : State) : (onFail i s).fsF = s.fsF := by
  cases i <;> rfl
@[simp] theorem onFail_acUnk (i : Instr) (s : State) : (onFail i s).acUnk = s.acUnk := by
  cases i <;> rfl
@[simp] theorem onFail_desync (i : Instr) (s : State) : (onFail i s).desync = s.desync := by
  cases i <;> rfl
@[simp] theorem onFail_lastErr (i : Instr) (s : State) : (onFail i s).lastErr = s.lastErr := by
  cases i <;> rfl
@[simp] theorem onFail_addr (i : Instr) (s : State) : (onFail i s).addr = s.addr := by
  cases i <;> rfl
@[simp] theorem onFail_addrOk (i : Instr) (s : State) : (onFail i s).addrOk = s.addrOk := by
  cases i <;> rfl
@[simp] theorem onFail_busSel (i : Instr) (s : State) : (onFail i s).busSel = s.busSel := by
  cases i <;> rfl
@[simp] theorem onFail_busy (i : Instr) (s : State) : (onFail i s).busy = s.busy := by
  cases i <;> rfl
@[simp] theorem onFail_plan (i : Instr) (s : State) : (onFail i s).plan = s.plan := by
  cases i <;> rfl
@[simp] theorem onFail_seq (i : Instr) (s : State) : (onFail i s).seq = s.seq := by
  cases i <;> rfl
@[simp] theorem onFail_tmr (i : Instr) (s : State) : (onFail i s).tmr = s.tmr := by
  cases i <;> rfl
@[simp] theorem onFail_req (i : Instr) (s : State) : (onFail i s).req = s.req := by
  cases i <;> rfl
@[simp] theorem onFail_flight (i : Instr) (s : State) : (onFail i s).flight = s.flight := by
  cases i <;> rfl
@[simp] theorem onFail_aborting (i : Instr) (s : State) : (onFail i s).aborting = s.aborting := by
  cases i <;> rfl
@[simp] theorem onFail_rdata (i : Instr) (s : State) : (onFail i s).rdata = s.rdata := by
  cases i <;> rfl
@[simp] theorem onFail_rst (i : Instr) (s : State) : (onFail i s).rst = s.rst := by
  cases i <;> rfl
@[simp] theorem onFail_port (i : Instr) (s : State) : (onFail i s).port = s.port := by
  cases i <;> rfl
@[simp] theorem onFail_rx (i : Instr) (s : State) : (onFail i s).rx = s.rx := by
  cases i <;> rfl
@[simp] theorem onFail_answers (i : Instr) (s : State) : (onFail i s).answers = s.answers := by
  cases i <;> rfl
@[simp] theorem onFail_probes (i : Instr) (s : State) : (onFail i s).probes = s.probes := by
  cases i <;> rfl
@[simp] theorem onFail_draws (i : Instr) (s : State) : (onFail i s).draws = s.draws := by
  cases i <;> rfl
@[simp] theorem onFail_trace (i : Instr) (s : State) : (onFail i s).trace = s.trace := by
  cases i <;> rfl
@[simp] theorem onFail_responses (i : Instr) (s : State) : (onFail i s).responses = s.responses := by
  cases i <;> rfl
@[simp] theorem onFail_display (i : Instr) (s : State) : (onFail i s).display = s.display := by
  cases i <;> rfl

/-! ### onAbort: what it leaves unchanged -/

@[simp] theorem onAbort_cfg (i : Instr) (s : State) : (onAbort i s).cfg = s.cfg := by
  cases i <;> rfl
@[simp] theorem onAbort_bl (i : Instr) (s : State) : (onAbort i s).bl = s.bl := by
  cases i <;> rfl
@[simp] theorem onAbort_emId (i : Instr) (s : State) : (onAbort i s).emId = s.emId := by
  cases i <;> rfl
@[simp] theorem onAbort_emS (i : Instr) (s : State) : (onAbort i s).emS = s.emS := by
  cases i <;> rfl
@[simp] theorem onAbort_fsDl (i : Instr) (s : State) : (onAbort i s).fsDl = s.fsDl := by
  cases i <;> rfl
@[simp] theorem onAbort_fsN (i : Instr) (s : State) : (onAbort i s).fsN = s.fsN := by
  cases i <;> rfl
@[simp] theorem onAbort_fsF (i : Instr) (s : State) : (onAbort i s).fsF = s.fsF := by
  cases i <;> rfl
@[simp] theorem onAbort_acUnk (i : Instr) (s : State) : (onAbort i s).acUnk = s.acUnk := by
  cases i <;> rfl
@[simp] theorem onAbort_desync (i : Instr) (s : State) : (onAbort i s).desync = s.desync := by
  cases i <;> rfl
@[simp] theorem onAbort_cgValid (i : Instr) (s : State) : (onAbort i s).cgValid = s.cgValid := by
  cases i <;> rfl
@[simp] theorem onAbort_lastErr (i : Instr) (s : State) : (onAbort i s).lastErr = s.lastErr := by
  cases i <;> rfl
@[simp] theorem onAbort_addr (i : Instr) (s : State) : (onAbort i s).addr = s.addr := by
  cases i <;> rfl
@[simp] theorem onAbort_addrOk (i : Instr) (s : State) : (onAbort i s).addrOk = s.addrOk := by
  cases i <;> rfl
@[simp] theorem onAbort_busSel (i : Instr) (s : State) : (onAbort i s).busSel = s.busSel := by
  cases i <;> rfl
@[simp] theorem onAbort_busy (i : Instr) (s : State) : (onAbort i s).busy = s.busy := by
  cases i <;> rfl
@[simp] theorem onAbort_plan (i : Instr) (s : State) : (onAbort i s).plan = s.plan := by
  cases i <;> rfl
@[simp] theorem onAbort_seq (i : Instr) (s : State) : (onAbort i s).seq = s.seq := by
  cases i <;> rfl
@[simp] theorem onAbort_tmr (i : Instr) (s : State) : (onAbort i s).tmr = s.tmr := by
  cases i <;> rfl
@[simp] theorem onAbort_req (i : Instr) (s : State) : (onAbort i s).req = s.req := by
  cases i <;> rfl
@[simp] theorem onAbort_flight (i : Instr) (s : State) : (onAbort i s).flight = s.flight := by
  cases i <;> rfl
@[simp] theorem onAbort_aborting (i : Instr) (s : State) : (onAbort i s).aborting = s.aborting := by
  cases i <;> rfl
@[simp] theorem onAbort_rdata (i : Instr) (s : State) : (onAbort i s).rdata = s.rdata := by
  cases i <;> rfl
@[simp] theorem onAbort_rst (i : Instr) (s : State) : (onAbort i s).rst = s.rst := by
  cases i <;> rfl
@[simp] theorem onAbort_port (i : Instr) (s : State) : (onAbort i s).port = s.port := by
  cases i <;> rfl
@[simp] theorem onAbort_rx (i : Instr) (s : State) : (onAbort i s).rx = s.rx := by
  cases i <;> rfl
@[simp] theorem onAbort_answers (i : Instr) (s : State) : (onAbort i s).answers = s.answers := by
  cases i <;> rfl
@[simp] theorem onAbort_probes (i : Instr) (s : State) : (onAbort i s).probes = s.probes := by
  cases i <;> rfl
@[simp] theorem onAbort_draws (i : Instr) (s : State) : (onAbort i s).draws = s.draws := by
  cases i <;> rfl
@[simp] theorem onAbort_trace (i : Instr) (s : State) : (onAbort i s).trace = s.trace := by
  cases i <;> rfl
@[simp] theorem onAbort_responses (i : Instr) (s : State) : (onAbort i s).responses = s.responses := by
  cases i <;> rfl
@[simp] theorem onAbort_display (i : Instr) (s : State) : (onAbort i s).display = s.display := by
  cases i <;> rfl

/-! ### onDone: what it leaves unchanged -/

@[simp] theorem onDone_cfg (i : Instr) (s : State) : (onDone i s).cfg = s.cfg := by
  cases i <;> rfl
@[simp] theorem onDone_bl (i : Instr) (s : State) : (onDone i s).bl = s.bl := by
  cases i <;> rfl
@[simp] theorem onDone_emId (i : Instr) (s : State) : (onDone i s).emId = s.emId := by
  cases i <;> rfl
@[simp] theorem onDone_emS (i : Instr) (s : State) : (onDone i s).emS = s.emS := by
  cases i <;> rfl
@[simp] theorem onDone_fsDl (i : Instr) (s : State) : (onDone i s).fsDl = s.fsDl := by
  cases i <;> rfl
@[simp] theorem onDone_fsN (i : Instr) (s : State) : (onDone i s).fsN = s.fsN := by
  cases i <;> rfl
@[simp] theorem onDone_fsF (i : Instr) (s : State) : (onDone i s).fsF = s.fsF := by
  cases i <;> rfl
@[simp] theorem onDone_acUnk (i : Instr) (s : State) : (onDone i s).acUnk = s.acUnk := by
  cases i <;> rfl
@[simp] theorem onDone_lastErr (i : Instr) (s : State) : (onDone i s).lastErr = s.lastErr := by
  cases i <;> rfl
@[simp] theorem onDone_addr (i : Instr) (s : State) : (onDone i s).addr = s.addr := by
  cases i <;> rfl
@[simp] theorem onDone_addrOk (i : Instr) (s : State) : (onDone i s).addrOk = s.addrOk := by
  cases i <;> rfl
@[simp] theorem onDone_busSel (i : Instr) (s : State) : (onDone i s).busSel = s.busSel := by
  cases i <;> rfl
@[simp] theorem onDone_busy (i : Instr) (s : State) : (onDone i s).busy = s.busy := by
  cases i <;> rfl
@[simp] theorem onDone_plan (i : Instr) (s : State) : (onDone i s).plan = s.plan := by
  cases i <;> rfl
@[simp] theorem onDone_seq (i : Instr) (s : State) : (onDone i s).seq = s.seq := by
  cases i <;> rfl
@[simp] theorem onDone_tmr (i : Instr) (s : State) : (onDone i s).tmr = s.tmr := by
  cases i <;> rfl
@[simp] theorem onDone_req (i : Instr) (s : State) : (onDone i s).req = s.req := by
  cases i <;> rfl
@[simp] theorem onDone_flight (i : Instr) (s : State) : (onDone i s).flight = s.flight := by
  cases i <;> rfl
@[simp] theorem onDone_aborting (i : Instr) (s : State) : (onDone i s).aborting = s.aborting := by
  cases i <;> rfl
@[simp] theorem onDone_rdata (i : Instr) (s : State) : (onDone i s).rdata = s.rdata := by
  cases i <;> rfl
@[simp] theorem onDone_rst (i : Instr) (s : State) : (onDone i s).rst = s.rst := by
  cases i <;> rfl
@[simp] theorem onDone_port (i : Instr) (s : State) : (onDone i s).port = s.port := by
  cases i <;> rfl
@[simp] theorem onDone_rx (i : Instr) (s : State) : (onDone i s).rx = s.rx := by
  cases i <;> rfl
@[simp] theorem onDone_answers (i : Instr) (s : State) : (onDone i s).answers = s.answers := by
  cases i <;> rfl
@[simp] theorem onDone_probes (i : Instr) (s : State) : (onDone i s).probes = s.probes := by
  cases i <;> rfl
@[simp] theorem onDone_draws (i : Instr) (s : State) : (onDone i s).draws = s.draws := by
  cases i <;> rfl
@[simp] theorem onDone_trace (i : Instr) (s : State) : (onDone i s).trace = s.trace := by
  cases i <;> rfl
@[simp] theorem onDone_responses (i : Instr) (s : State) : (onDone i s).responses = s.responses := by
  cases i <;> rfl

/-! ### itemDone: what it leaves unchanged -/

@[simp] theorem itemDone_cfg (i : Instr) (it : Item) (data : List Byte) (s : State) : (itemDone i it data s).cfg = s.cfg := by
  simp [itemDone]
@[simp] theorem itemDone_pstate (i : Instr) (it : Item) (data : List Byte) (s : State) : (itemDone i it data s).pstate = s.pstate := by
  simp [itemDone]
@[simp] theorem itemDone_bl (i : Instr) (it : Item) (data : List Byte) (s : State) : (itemDone i it data s).bl = s.bl := by
  simp [itemDone]
@[simp] theorem itemDone_cgValid (i : Instr) (it : Item) (data : List Byte) (s : State) : (itemDone i it data s).cgValid = s.cgValid := by
  simp [itemDone]
@[simp] theorem itemDone_lastErr (i : Instr) (it : Item) (data : List Byte) (s : State) : (itemDone i it data s).lastErr = s.lastErr := by
  simp [itemDone]
@[simp] theorem itemDone_addr (i : Instr) (it : Item) (data : List Byte) (s : State) : (itemDone i it data s).addr = s.addr := by
  simp [itemDone]
@[simp] theorem itemDone_addrOk (i : Instr) (it : Item) (data : List Byte) (s : State) : (itemDone i it data s).addrOk = s.addrOk := by
  simp [itemDone]
@[simp] theorem itemDone_busSel (i : Instr) (it : Item) (data : List Byte) (s : State) : (itemDone i it data s).busSel = s.busSel := by
  simp [itemDone]
@[simp] theorem itemDone_busy (i : Instr) (it : Item) (data : List Byte) (s : State) : (itemDone i it data s).busy = s.busy := by
  simp [itemDone]
@[simp] theorem itemDone_plan (i : Instr) (it : Item) (data : List Byte) (s : State) : (itemDone i it data s).plan = s.plan := by
  simp [itemDone]
@[simp] theorem itemDone_req (i : Instr) (it : Item) (data : List Byte) (s : State) : (itemDone i it data s).req = s.req := by
  simp [itemDone]
@[simp] theorem itemDone_aborting (i : Instr) (it : Item) (data : List Byte) (s : State) : (itemDone i it data s).aborting = s.aborting := by
  simp [itemDone]
@[simp] theorem itemDone_rst (i : Instr) (it : Item) (data : List Byte) (s : State) : (itemDone i it data s).rst = s.rst := by
  simp [itemDone]
@[simp] theorem itemDone_port (i : Instr) (it : Item) (data : List Byte) (s : State) : (itemDone i it data s).port = s.port := by
  simp [itemDone]
@[simp] theorem itemDone_rx (i : Instr) (it : Item) (data : List Byte) (s : State) : (itemDone i it data s).rx = s.rx := by
  simp [itemDone]
@[simp] theorem itemDone_probes (i : Instr) (it : Item) (data : List Byte) (s : State) : (itemDone i it data s).probes = s.probes := by
  simp [itemDone]
@[simp] theorem itemDone_responses (i : Instr) (it : Item) (data : List Byte) (s : State) : (itemDone i it data s).responses = s.responses := by
  simp [itemDone]

@[simp] theorem itemDone_flight (i : Instr) (it : Item) (data : List Byte) (s : State) :
    (itemDone i it data s).flight = none := by
  simp [itemDone]
@[simp] theorem itemDone_tmr (i : Instr) (it : Item) (data : List Byte) (s : State) :
    (itemDone i it data s).tmr = it.gap := by
  simp [itemDone]
@[simp] theorem itemDone_seq (i : Instr) (it : Item) (data : List Byte) (s : State) :
    (itemDone i it data s).seq = s.seq + 1 := by
  simp [itemDone]
@[simp] theorem itemDone_rdata (i : Instr) (it : Item) (data : List Byte) (s : State) :
    (itemDone i it data s).rdata = data := by
  simp [itemDone]
@[simp] theorem itemDone_answers (i : Instr) (it : Item) (data : List Byte) (s : State) :
    (itemDone i it data s).answers = s.answers.tail := by
  simp [itemDone]
@[simp] theorem itemDone_draws (i : Instr) (it : Item) (data : List Byte) (s : State) :
    (itemDone i it data s).draws = s.draws + 1 := by
  simp [itemDone]
@[simp] theorem itemDone_trace (i : Instr) (it : Item) (data : List Byte) (s : State) :
    (itemDone i it data s).trace = s.trace ++ [itemTx i it s .ok] := by
  simp [itemDone]
@[simp] theorem itemDone_display (i : Instr) (it : Item) (data : List Byte) (s : State) :
    (itemDone i it data s).display = displayDone s.cfg i it s.display := by
  simp [itemDone]

/-! ### itemFailed: what it leaves unchanged -/

@[simp] theorem itemFailed_cfg (i : Instr) (it : Item) (s : State) : (itemFailed i it s).cfg = s.cfg := by
  simp [itemFailed]
@[simp] theorem itemFailed_pstate (i : Instr) (it : Item) (s : State) : (itemFailed i it s).pstate = s.pstate := by
  simp [itemFailed]
@[simp] theorem itemFailed_bl (i : Instr) (it : Item) (s : State) : (itemFailed i it s).bl = s.bl := by
  simp [itemFailed]
@[simp] theorem itemFailed_emId (i : Instr) (it : Item) (s : State) : (itemFailed i it s).emId = s.emId := by
  simp [itemFailed]
@[simp] theorem itemFailed_emS (i : Instr) (it : Item) (s : State) : (itemFailed i it s).emS = s.emS := by
  simp [itemFailed]
@[simp] theorem itemFailed_fsDl (i : Instr) (it : Item) (s : State) : (itemFailed i it s).fsDl = s.fsDl := by
  simp [itemFailed]
@[simp] theorem itemFailed_fsN (i : Instr) (it : Item) (s : State) : (itemFailed i it s).fsN = s.fsN := by
  simp [itemFailed]
@[simp] theorem itemFailed_fsF (i : Instr) (it : Item) (s : State) : (itemFailed i it s).fsF = s.fsF := by
  simp [itemFailed]
@[simp] theorem itemFailed_lastErr (i : Instr) (it : Item) (s : State) : (itemFailed i it s).lastErr = s.lastErr := by
  simp [itemFailed]
@[simp] theorem itemFailed_addr (i : Instr) (it : Item) (s : State) : (itemFailed i it s).addr = s.addr := by
  simp [itemFailed]
@[simp] theorem itemFailed_addrOk (i : Instr) (it : Item) (s : State) : (itemFailed i it s).addrOk = s.addrOk := by
  simp [itemFailed]
@[simp] theorem itemFailed_busSel (i : Instr) (it : Item) (s : State) : (itemFailed i it s).busSel = s.busSel := by
  simp [itemFailed]
@[simp] theorem itemFailed_busy (i : Instr) (it : Item) (s : State) : (itemFailed i it s).busy = s.busy := by
  simp [itemFailed]
@[simp] theorem itemFailed_plan (i : Instr) (it : Item) (s : State) : (itemFailed i it s).plan = s.plan := by
  simp [itemFailed]
@[simp] theorem itemFailed_seq (i : Instr) (it : Item) (s : State) : (itemFailed i it s).seq = s.seq := by
  simp [itemFailed]
@[simp] theorem itemFailed_req (i : Instr) (it : Item) (s : State) : (itemFailed i it s).req = s.req := by
  simp [itemFailed]
@[simp] theorem itemFailed_rdata (i : Instr) (it : Item) (s : State) : (itemFailed i it s).rdata = s.rdata := by
  simp [itemFailed]
@[simp] theorem itemFailed_rst (i : Instr) (it : Item) (s : State) : (itemFailed i it s).rst = s.rst := by
  simp [itemFailed]
@[simp] theorem itemFailed_port (i : Instr) (it : Item) (s : State) : (itemFailed i it s).port = s.port := by
  simp [itemFailed]
@[simp] theorem itemFailed_rx (i : Instr) (it : Item) (s : State) : (itemFailed i it s).rx = s.rx := by
  simp [itemFailed]
@[simp] theorem itemFailed_probes (i : Instr) (it : Item) (s : State) : (itemFailed i it s).probes = s.probes := by
  simp [itemFailed]
@[simp] theorem itemFailed_responses (i : Instr) (it : Item) (s : State) : (itemFailed i it s).responses = s.responses := by
  simp [itemFailed]

@[simp] theorem itemFailed_flight (i : Instr) (it : Item) (s : State) : (itemFailed i it s).flight = none := by
  simp [itemFailed]
@[simp] theorem itemFailed_tmr (i : Instr) (it : Item) (s : State) : (itemFailed i it s).tmr = it.gap := by
  simp [itemFailed]
@[simp] theorem itemFailed_aborting (i : Instr) (it : Item) (s : State) : (itemFailed i it s).aborting = true := by
  simp [itemFailed]
@[simp] theorem itemFailed_answers (i : Instr) (it : Item) (s : State) :
    (itemFailed i it s).answers = s.answers.tail := by
  simp [itemFailed]
@[simp] theorem itemFailed_draws (i : Instr) (it : Item) (s : State) : (itemFailed i it s).draws = s.draws + 1 := by
  simp [itemFailed]
@[simp] theorem itemFailed_trace (i : Instr) (it : Item) (s : State) :
    (itemFailed i it s).trace = s.trace ++ [itemTx i it s .fail] := by
  simp [itemFailed]
@[simp] theorem itemFailed_display (i : Instr) (it : Item) (s : State) :
    (itemFailed i it s).display = displayFailed it s.display := by
  simp [itemFailed]

/-! ### abortRequest: what it leaves unchanged -/

@[simp] theorem abortRequest_cfg (i : Instr) (s : State) : (abortRequest i s).cfg = s.cfg := by
  simp [abortRequest, raiseError]
@[simp] theorem abortRequest_bl (i : Instr) (s : State) : (abortRequest i s).bl = s.bl := by
  simp [abortRequest, raiseError]
@[simp] theorem abortRequest_emId (i : Instr) (s : State) : (abortRequest i s).emId = s.emId := by
  simp [abortRequest, raiseError]
@[simp] theorem abortRequest_emS (i : Instr) (s : State) : (abortRequest i s).emS = s.emS := by
  simp [abortRequest, raiseError]
@[simp] theorem abortRequest_fsDl (i : Instr) (s : State) : (abortRequest i s).fsDl = s.fsDl := by
  simp [abortRequest, raiseError]
@[simp] theorem abortRequest_fsN (i : Instr) (s : State) : (abortRequest i s).fsN = s.fsN := by
  simp [abortRequest, raiseError]
@[simp] theorem abortRequest_fsF (i : Instr) (s : State) : (abortRequest i s).fsF = s.fsF := by
  simp [abortRequest, raiseError]
@[simp] theorem abortRequest_acUnk (i : Instr) (s : State) : (abortRequest i s).acUnk = s.acUnk := by
  simp [abortRequest, raiseError]
@[simp] theorem abortRequest_desync (i : Instr) (s : State) : (abortRequest i s).desync = s.desync := by
  simp [abortRequest, raiseError]
@[simp] theorem abortRequest_cgValid (i : Instr) (s : State) : (abortRequest i s).cgValid = s.cgValid := by
  simp [abortRequest, raiseError]
@[simp] theorem abortRequest_addr (i : Instr) (s : State) : (abortRequest i s).addr = s.addr := by
  simp [abortRequest, raiseError]
@[simp] theorem abortRequest_addrOk (i : Instr) (s : State) : (abortRequest i s).addrOk = s.addrOk := by
  simp [abortRequest, raiseError]
@[simp] theorem abortRequest_busSel (i : Instr) (s : State) : (abortRequest i s).busSel = s.busSel := by
  simp [abortRequest, raiseError]
@[simp] theorem abortRequest_plan (i : Instr) (s : State) : (abortRequest i s).plan = s.plan := by
  simp [abortRequest, raiseError]
@[simp] theorem abortRequest_seq (i : Instr) (s : State) : (abortRequest i s).seq = s.seq := by
  simp [abortRequest, raiseError]
@[simp] theorem abortRequest_tmr (i : Instr) (s : State) : (abortRequest i s).tmr = s.tmr := by
  simp [abortRequest, raiseError]
@[simp] theorem abortRequest_req (i : Instr) (s : State) : (abortRequest i s).req = s.req := by
  simp [abortRequest, raiseError]
@[simp] theorem abortRequest_flight (i : Instr) (s : State) : (abortRequest i s).flight = s.flight := by
  simp [abortRequest, raiseError]
@[simp] theorem abortRequest_rdata (i : Instr) (s : State) : (abortRequest i s).rdata = s.rdata := by
  simp [abortRequest, raiseError]
@[simp] theorem abortRequest_rst (i : Instr) (s : State) : (abortRequest i s).rst = s.rst := by
  simp [abortRequest, raiseError]
@[simp] theorem abortRequest_port (i : Instr) (s : State) : (abortRequest i s).port = s.port := by
  simp [abortRequest, raiseError]
@[simp] theorem abortRequest_rx (i : Instr) (s : State) : (abortRequest i s).rx = s.rx := by
  simp [abortRequest, raiseError]
@[simp] theorem abortRequest_answers (i : Instr) (s : State) : (abortRequest i s).answers = s.answers := by
  simp [abortRequest, raiseError]
@[simp] theorem abortRequest_probes (i : Instr) (s : State) : (abortRequest i s).probes = s.probes := by
  simp [abortRequest, raiseError]
@[simp] theorem abortRequest_draws (i : Instr) (s : State) : (abortRequest i s).draws = s.draws := by
  simp [abortRequest, raiseError]
@[simp] theorem abortRequest_trace (i : Instr) (s : State) : (abortRequest i s).trace = s.trace := by
  simp [abortRequest, raiseError]
@[simp] theorem abortRequest_display (i : Instr) (s : State) : (abortRequest i s).display = s.display := by
  simp [abortRequest, raiseError]

@[simp] theorem abortRequest_pstate (i : Instr) (s : State) :
    (abortRequest i s).pstate = if isInit i then .faulted else s.pstate := by
  cases i <;> rfl
@[simp] theorem abortRequest_lastErr (i : Instr) (s : State) : (abortRequest i s).lastErr = failCode i := rfl
@[simp] theorem abortRequest_responses (i : Instr) (s : State) :
    (abortRequest i s).responses = s.responses ++ [{ code := failCode i, bytes := [] }] := by
  simp [abortRequest, raiseError]
@[simp] theorem abortRequest_busy (i : Instr) (s : State) : (abortRequest i s).busy = false := rfl
@[simp] theorem abortRequest_aborting (i : Instr) (s : State) : (abortRequest i s).aborting = false := rfl

/-! ### finishRequest: what it leaves unchanged -/

@[simp] theorem finishRequest_cfg (i : Instr) (s : State) : (finishRequest i s).cfg = s.cfg := by
  simp [finishRequest]
@[simp] theorem finishRequest_bl (i : Instr) (s : State) : (finishRequest i s).bl = s.bl := by
  simp [finishRequest]
@[simp] theorem finishRequest_emId (i : Instr) (s : State) : (finishRequest i s).emId = s.emId := by
  simp [finishRequest]
@[simp] theorem finishRequest_emS (i : Instr) (s : State) : (finishRequest i s).emS = s.emS := by
  simp [finishRequest]
@[simp] theorem finishRequest_fsDl (i : Instr) (s : State) : (finishRequest i s).fsDl = s.fsDl := by
  simp [finishRequest]
@[simp] theorem finishRequest_fsN (i : Instr) (s : State) : (finishRequest i s).fsN = s.fsN := by
  simp [finishRequest]
@[simp] theorem finishRequest_fsF (i : Instr) (s : State) : (finishRequest i s).fsF = s.fsF := by
  simp [finishRequest]
@[simp] theorem finishRequest_acUnk (i : Instr) (s : State) : (finishRequest i s).acUnk = s.acUnk := by
  simp [finishRequest]
@[simp] theorem finishRequest_addr (i : Instr) (s : State) : (finishRequest i s).addr = s.addr := by
  simp [finishRequest]
@[simp] theorem finishRequest_addrOk (i : Instr) (s : State) : (finishRequest i s).addrOk = s.addrOk := by
  simp [finishRequest]
@[simp] theorem finishRequest_busSel (i : Instr) (s : State) : (finishRequest i s).busSel = s.busSel := by
  simp [finishRequest]
@[simp] theorem finishRequest_plan (i : Instr) (s : State) : (finishRequest i s).plan = s.plan := by
  simp [finishRequest]
@[simp] theorem finishRequest_seq (i : Instr) (s : State) : (finishRequest i s).seq = s.seq := by
  simp [finishRequest]
@[simp] theorem finishRequest_tmr (i : Instr) (s : State) : (finishRequest i s).tmr = s.tmr := by
  simp [finishRequest]
@[simp] theorem finishRequest_req (i : Instr) (s : State) : (finishRequest i s).req = s.req := by
  simp [finishRequest]
@[simp] theorem finishRequest_flight (i : Instr) (s : State) : (finishRequest i s).flight = s.flight := by
  simp [finishRequest]
@[simp] theorem finishRequest_rdata (i : Instr) (s : State) : (finishRequest i s).rdata = s.rdata := by
  simp [finishRequest]
@[simp] theorem finishRequest_rst (i : Instr) (s : State) : (finishRequest i s).rst = s.rst := by
  simp [finishRequest]
@[simp] theorem finishRequest_port (i : Instr) (s : State) : (finishRequest i s).port = s.port := by
  simp [finishRequest]
@[simp] theorem finishRequest_rx (i : Instr) (s : State) : (finishRequest i s).rx = s.rx := by
  simp [finishRequest]
@[simp] theorem finishRequest_answers (i : Instr) (s : State) : (finishRequest i s).answers = s.answers := by
  simp [finishRequest]
@[simp] theorem finishRequest_probes (i : Instr) (s : State) : (finishRequest i s).probes = s.probes := by
  simp [finishRequest]
@[simp] theorem finishRequest_draws (i : Instr) (s : State) : (finishRequest i s).draws = s.draws := by
  simp [finishRequest]
@[simp] theorem finishRequest_trace (i : Instr) (s : State) : (finishRequest i s).trace = s.trace := by
  simp [finishRequest]

@[simp] theorem finishRequest_pstate (i : Instr) (s : State) :
    (finishRequest i s).pstate = if isInit i then .ready else s.pstate := by
  cases i <;> rfl
@[simp] theorem finishRequest_lastErr (i : Instr) (s : State) : (finishRequest i s).lastErr = .ok := rfl
@[simp] theorem finishRequest_responses (i : Instr) (s : State) :
    (finishRequest i s).responses = s.responses ++ [{ code := .ok, bytes := s.rdata }] := by
  simp [finishRequest]
@[simp] theorem finishRequest_busy (i : Instr) (s : State) : (finishRequest i s).busy = false := rfl
@[simp] theorem finishRequest_aborting (i : Instr) (s : State) : (finishRequest i s).aborting = false := rfl

end Sys2Proof.Machine
end

