-- ==== Sys2Proof/Laws/Accept.lean ====
section
/-! SUPPORT. Everything taking a request can do. -/

namespace Sys2Proof.Machine

/-- The acceptance check passes exactly when every one of its four conditions does. -/
theorem acceptCheck_ok_iff (i : Instr) (s : State) :
    acceptCheck i s = .ok ↔
      isReserved i = false ∧ legalOperands s.cfg i = true ∧ (needsAddress i = true → s.addrOk = true) ∧
        (needsReady i = true → s.pstate = .ready) := by
  unfold acceptCheck
  split_ifs with h1 h2 h3 h4 <;> simp_all

/-- The state a passed check leads to, before an empty plan is answered (41_sequencer.md R140). -/
def takenState (i : Instr) (pre : State → State) (plan : State → List Item) (s : State) : State :=
  let s1 := pre { s with req := some (encodeRequest i), busy := true }
  { s1 with plan := plan s1, seq := 0, rdata := [] }

/-- A request that passes its check with a plan to run. -/
theorem takeRequest_runs {i : Instr} {pre : State → State} {plan : State → List Item} {ans : List Byte} {s : State}
    (h : acceptCheck i s = .ok) (hp : (takenState i pre plan s).plan ≠ []) :
    takeRequest i pre plan ans s = .next (takenState i pre plan s) := by
  unfold takeRequest
  rw [h]
  have : (takenState i pre plan s).plan.isEmpty = false := by
    cases hq : (takenState i pre plan s).plan with
    | nil => exact absurd hq hp
    | cons _ _ => rfl
  simp only [takenState] at this ⊢
  rw [this]
  rfl

/-- A request that passes its check with an empty plan responds at once (R142). -/
theorem takeRequest_empty {i : Instr} {pre : State → State} {plan : State → List Item} {ans : List Byte} {s : State}
    (h : acceptCheck i s = .ok) (hp : (takenState i pre plan s).plan = []) :
    takeRequest i pre plan ans s = .next (endRequest .ok ans (takenState i pre plan s)) := by
  unfold takeRequest
  rw [h]
  have : (takenState i pre plan s).plan.isEmpty = true := by rw [hp]; rfl
  simp only [takenState] at this ⊢
  rw [this]
  rfl

/-- A request that fails its check ends with its code and nothing else (60_exceptions.md R210). -/
theorem takeRequest_fails {i : Instr} {pre : State → State} {plan : State → List Item} {ans : List Byte} {s : State}
    (h : acceptCheck i s ≠ .ok) : takeRequest i pre plan ans s = .next (raiseError (acceptCheck i s) s) := by
  unfold takeRequest
  split <;> simp_all

/-- Everything taking a request can do: run a plan, answer at once, or end with an error. It always answers a next
state. -/
theorem takeRequest_cases (i : Instr) (pre : State → State) (plan : State → List Item) (ans : List Byte) (s : State) :
    (acceptCheck i s = .ok ∧ (takenState i pre plan s).plan ≠ [] ∧
        takeRequest i pre plan ans s = .next (takenState i pre plan s)) ∨
      (acceptCheck i s = .ok ∧ (takenState i pre plan s).plan = [] ∧
        takeRequest i pre plan ans s = .next (endRequest .ok ans (takenState i pre plan s))) ∨
      (acceptCheck i s ≠ .ok ∧ takeRequest i pre plan ans s = .next (raiseError (acceptCheck i s) s)) := by
  by_cases h : acceptCheck i s = .ok
  · by_cases hp : (takenState i pre plan s).plan = []
    · exact .inr (.inl ⟨h, hp, takeRequest_empty h hp⟩)
    · exact .inl ⟨h, hp, takeRequest_runs h hp⟩
  · exact .inr (.inr ⟨h, takeRequest_fails h⟩)

end Sys2Proof.Machine
end

