-- ==== Sys2Proof/Laws/Memory.lean ====
section
/-! SUPPORT. The display's memories: a read after a write, and that every memory operation keeps the canonical form. -/

namespace Sys2Proof.Machine

variable {w : Nat}

@[simp] theorem memRead_nil (a : Nat) : memRead ([] : Memory w) a = none := rfl

theorem memRead_memWrite_same (m : Memory w) (a : Nat) (v : BitVec w) : memRead (memWrite m a v) a = some v := by
  induction m with
  | nil => simp [memWrite, memRead]
  | cons c t ih =>
    obtain ⟨k, x⟩ := c
    unfold memWrite
    split_ifs with h1 h2
    · simp [memRead]
    · simp [memRead]
    · have : k ≠ a := fun h => h2 h.symm
      simp [memRead, this, ih]

theorem memRead_memWrite_other (m : Memory w) (a a' : Nat) (v : BitVec w) (h : a' ≠ a) :
    memRead (memWrite m a v) a' = memRead m a' := by
  have ha : a ≠ a' := fun e => h e.symm
  induction m with
  | nil => simp [memWrite, memRead, ha]
  | cons c t ih =>
    obtain ⟨k, x⟩ := c
    unfold memWrite
    split_ifs with h1 h2
    · simp [memRead, ha]
    · subst h2; simp [memRead, ha]
    · by_cases hk : k = a' <;> simp [memRead, hk, ih]

/-- The keys a write leaves: the old ones and the one written. -/
theorem memWrite_all (m : Memory w) (a : Nat) (v : BitVec w) (P : Nat → Bool) (hm : m.all (fun c => P c.1) = true)
    (ha : P a = true) : (memWrite m a v).all (fun c => P c.1) = true := by
  induction m with
  | nil => simp [memWrite, ha]
  | cons c t ih =>
    obtain ⟨k, x⟩ := c
    simp only [List.all_cons, Bool.and_eq_true] at hm
    unfold memWrite
    split_ifs
    · simp only [List.all_cons, Bool.and_eq_true]; exact ⟨ha, hm.1, hm.2⟩
    · simp only [List.all_cons, Bool.and_eq_true]; exact ⟨ha, hm.2⟩
    · simp only [List.all_cons, Bool.and_eq_true]; exact ⟨hm.1, ih hm.2⟩

@[simp] theorem Memory.wf_nil (size : Nat) : Memory.wf size ([] : Memory w) = true := rfl

theorem Memory.wf_cons (size k : Nat) (x : BitVec w) (t : Memory w) :
    Memory.wf size ((k, x) :: t) = true ↔
      k < size ∧ t.all (fun c => decide (k < c.1)) = true ∧ Memory.wf size t = true := by
  simp only [Memory.wf, Bool.and_eq_true, decide_eq_true_eq, and_assoc]

theorem memWrite_wf (size : Nat) (m : Memory w) (a : Nat) (v : BitVec w) (hm : Memory.wf size m = true)
    (ha : a < size) : Memory.wf size (memWrite m a v) = true := by
  induction m with
  | nil => simp [memWrite, Memory.wf, ha]
  | cons c t ih =>
    obtain ⟨k, x⟩ := c
    obtain ⟨hk, hall, ht⟩ := (Memory.wf_cons size k x t).1 hm
    unfold memWrite
    split_ifs with h1 h2
    · refine (Memory.wf_cons _ _ _ _).2 ⟨ha, ?_, hm⟩
      simp only [List.all_cons, Bool.and_eq_true, decide_eq_true_eq, List.all_eq_true] at hall ⊢
      exact ⟨h1, fun c hc => h1.trans (hall c hc)⟩
    · subst h2; exact (Memory.wf_cons _ _ _ _).2 ⟨ha, hall, ht⟩
    · refine (Memory.wf_cons _ _ _ _).2 ⟨hk, ?_, ih ht⟩
      exact memWrite_all t a v (fun n => decide (k < n)) hall (by simp; omega)

theorem memFill_wf_from (size : Nat) (v : BitVec w) (n start : Nat) (h : start + n ≤ size) :
    Memory.wf size ((List.range' start n).map (fun a => (a, v))) = true := by
  induction n generalizing start with
  | zero => rfl
  | succ n ih =>
    rw [List.range'_succ, List.map_cons]
    refine (Memory.wf_cons _ _ _ _).2 ⟨by omega, ?_, ih (start + 1) (by omega)⟩
    simp only [List.all_map, List.all_eq_true, List.mem_range'_1, Function.comp_apply, decide_eq_true_eq]
    omega

theorem memFill_wf (size : Nat) (v : BitVec w) : Memory.wf size (memFill size v) = true := by
  unfold memFill
  rw [List.range_eq_range']
  exact memFill_wf_from size v size 0 (by omega)

theorem memRead_map_range' (v : BitVec w) (n start a : Nat) :
    memRead ((List.range' start n).map (fun a => (a, v))) a = if start ≤ a ∧ a < start + n then some v else none := by
  induction n generalizing start with
  | zero => simp
  | succ n ih =>
    rw [List.range'_succ, List.map_cons]
    by_cases h : start = a
    · simp [memRead, h]
    · simp only [memRead, h, if_false, ih]
      congr 1
      simp only [eq_iff_iff]
      omega

theorem memRead_memFill (size : Nat) (v : BitVec w) (a : Nat) :
    memRead (memFill size v) a = if a < size then some v else none := by
  unfold memFill
  rw [List.range_eq_range', memRead_map_range']
  simp

end Sys2Proof.Machine
end

