-- ==== Sys2Proof/Laws/Display.lean ====
section
/-! SUPPORT. Every operation of the reference display keeps its memories' canonical form, and none but a completed INIT or
LDGLYPH makes known what was unknown as a whole. -/

namespace Sys2Proof.Machine

/-- Both memories of the display are in canonical form. -/
def displayWf (d : Display) : Prop := Memory.wf 128 d.ddram = true ∧ Memory.wf 64 d.cgram = true

theorem displayWf_allUnknown : displayWf Display.allUnknown := ⟨rfl, rfl⟩

theorem displayWf_scramble (d : Display) : displayWf (displayScramble d) := ⟨rfl, rfl⟩

theorem displayWf_loadDone {d : Display} (h : displayWf d) : displayWf (displayLoadDone d) := by
  unfold displayLoadDone
  split <;> exact h

theorem displayWf_data {d : Display} (b : Byte) (h : displayWf d) : displayWf (displayData b d) := by
  unfold displayData
  split
  · split
    · exact ⟨memWrite_wf _ _ _ _ h.1 (by rename_i a _; exact a.isLt), h.2⟩
    · exact ⟨rfl, h.2⟩
  · split
    · exact ⟨h.1, memWrite_wf _ _ _ _ h.2 (BitVec.isLt _)⟩
    · exact ⟨h.1, rfl⟩
  · exact ⟨rfl, rfl⟩

theorem displayWf_command {d : Display} (b : Byte) (h : displayWf d) : displayWf (displayCommand b d) := by
  unfold displayCommand
  split_ifs <;> first | exact ⟨h.1, h.2⟩ | exact ⟨memFill_wf 128 _, h.2⟩

theorem displayWf_byte {d : Display} (rs : Bool) (b : Byte) (h : displayWf d) : displayWf (displayByte rs b d) := by
  unfold displayByte
  split_ifs
  · exact displayWf_data b h
  · exact displayWf_command b h

theorem displayWf_strobe {d : Display} (c : Config) (followed : Bool) (v : Byte) (h : displayWf d) :
    displayWf (displayStrobe c followed v d) := by
  unfold displayStrobe
  split_ifs
  · exact displayWf_scramble d
  · split
    · exact ⟨h.1, h.2⟩
    · split
      · split_ifs
        · exact displayWf_byte _ _ h
        · exact displayWf_scramble d
      · exact displayWf_scramble d
    · exact displayWf_scramble d

theorem displayWf_latch {d : Display} (c : Config) (followed : Bool) (v : Byte) (h : displayWf d) :
    displayWf (displayLatch c followed d v) := by
  unfold displayLatch
  dsimp only
  split_ifs
  · exact ⟨h.1, h.2⟩
  · split
    · exact displayWf_scramble _
    · split_ifs
      · exact displayWf_strobe c followed v ⟨h.1, h.2⟩
      · exact ⟨h.1, h.2⟩

theorem displayWf_foldl (f : Display → Byte → Display) (hf : ∀ d v, displayWf d → displayWf (f d v)) (l : List Byte)
    (d : Display) (h : displayWf d) : displayWf (l.foldl f d) := by
  induction l generalizing d with
  | nil => exact h
  | cons v t ih => exact ih _ (hf d v h)

theorem displayWf_done {d : Display} (c : Config) (i : Instr) (it : Item) (h : displayWf d) :
    displayWf (displayDone c i it d) := by
  have hinit : ∀ (d : Display) (v : Byte), displayWf d → displayWf (displayInitWrite d v) :=
    fun _ _ hd => ⟨rfl, hd.2⟩
  have hlatch : ∀ p (d : Display) (v : Byte), displayWf d → displayWf (displayLatch c p d v) :=
    fun p _ v hd => displayWf_latch c p v hd
  unfold displayDone
  split
  · split_ifs
    · exact h
    · exact ⟨rfl, rfl⟩
  · split_ifs
    · exact displayWf_foldl _ hinit _ _ h
    · exact displayWf_foldl _ (hlatch _) _ _ h
  · split_ifs
    · exact displayWf_foldl _ hinit _ _ h
    · exact displayWf_foldl _ (hlatch _) _ _ h
  · exact displayWf_foldl _ (hlatch _) _ _ h
  · exact displayWf_foldl _ (hlatch _) _ _ h

theorem displayWf_failed {d : Display} (it : Item) (h : displayWf d) : displayWf (displayFailed it d) := by
  unfold displayFailed
  split <;> first | exact displayWf_allUnknown | (split_ifs <;> first | exact h | exact displayWf_allUnknown)

/-- `e` knows no more than `d` of the mode and of CGRAM as a whole: no byte written and no failure makes them known
(20_memory.md R84). -/
def KnowsNoMore (d e : Display) : Prop := (e.cgKnown = true → d.cgKnown = true) ∧ (e.mode = .four → d.mode = .four)

theorem KnowsNoMore.refl (d : Display) : KnowsNoMore d d := ⟨id, id⟩

theorem KnowsNoMore.trans {d e f : Display} (h : KnowsNoMore d e) (h' : KnowsNoMore e f) : KnowsNoMore d f :=
  ⟨fun x => h.1 (h'.1 x), fun x => h.2 (h'.2 x)⟩

theorem knowsNoMore_allUnknown (d : Display) : KnowsNoMore d Display.allUnknown := ⟨nofun, nofun⟩

theorem knowsNoMore_scramble (d : Display) : KnowsNoMore d (displayScramble d) := ⟨id, nofun⟩

theorem knowsNoMore_byte (rs : Bool) (b : Byte) (d : Display) : KnowsNoMore d (displayByte rs b d) := by
  unfold displayByte displayData displayCommand
  split_ifs <;> (try split) <;> (try split) <;> first | exact ⟨id, id⟩ | exact ⟨id, nofun⟩

theorem knowsNoMore_strobe (c : Config) (followed : Bool) (v : Byte) (d : Display) :
    KnowsNoMore d (displayStrobe c followed v d) := by
  unfold displayStrobe
  split_ifs
  · exact knowsNoMore_scramble d
  · split
    · exact ⟨id, id⟩
    · split
      · split_ifs
        · exact (knowsNoMore_byte _ _ d).trans ⟨id, id⟩
        · exact knowsNoMore_scramble d
      · exact knowsNoMore_scramble d
    · exact knowsNoMore_scramble d

theorem knowsNoMore_latch (c : Config) (followed : Bool) (d : Display) (v : Byte) :
    KnowsNoMore d (displayLatch c followed d v) := by
  unfold displayLatch
  dsimp only
  split_ifs
  · exact ⟨id, id⟩
  · split
    · exact ⟨id, nofun⟩
    · split_ifs
      · exact KnowsNoMore.trans ⟨id, id⟩ (knowsNoMore_strobe c followed v _)
      · exact ⟨id, id⟩

theorem knowsNoMore_foldl (f : Display → Byte → Display) (hf : ∀ d v, KnowsNoMore d (f d v)) (l : List Byte)
    (d : Display) : KnowsNoMore d (l.foldl f d) := by
  induction l generalizing d with
  | nil => exact .refl d
  | cons v t ih => exact (hf d v).trans (ih _)

theorem knowsNoMore_done (c : Config) (i : Instr) (it : Item) (d : Display) : KnowsNoMore d (displayDone c i it d) := by
  have hinit : ∀ (d : Display) (v : Byte), KnowsNoMore d (displayInitWrite d v) := fun _ _ => ⟨id, nofun⟩
  unfold displayDone
  split
  · split_ifs
    · exact .refl d
    · exact ⟨id, nofun⟩
  · split_ifs
    · exact knowsNoMore_foldl _ hinit _ _
    · exact knowsNoMore_foldl _ (knowsNoMore_latch c _) _ _
  · split_ifs
    · exact knowsNoMore_foldl _ hinit _ _
    · exact knowsNoMore_foldl _ (knowsNoMore_latch c _) _ _
  · exact knowsNoMore_foldl _ (knowsNoMore_latch c _) _ _
  · exact knowsNoMore_foldl _ (knowsNoMore_latch c _) _ _

theorem knowsNoMore_failed (it : Item) (d : Display) : KnowsNoMore d (displayFailed it d) := by
  unfold displayFailed
  split <;> first | exact knowsNoMore_allUnknown d | (split_ifs <;> first | exact .refl d | exact knowsNoMore_allUnknown d)

theorem displayWf_initDone {d : Display} (h : displayWf d) : displayWf (displayInitDone d) :=
  ⟨memFill_wf 128 _, h.2⟩

end Sys2Proof.Machine
end

