-- ==== Sys2Proof/Laws/Encoding.lean ====
section
/-! SUPPORT. The header's fields, the header as two bytes, and the request round trip. -/

namespace Sys2Proof

/-- Bit `i` of a header made of its fields. -/
theorem makeHeader_getLsbD (op : BitVec 5) (a : BitVec 3) (b : Byte) (i : Nat) :
    (makeHeader op a b).getLsbD i =
      if i < 8 then b.getLsbD i else if i - 8 < 3 then a.getLsbD (i - 8) else op.getLsbD (i - 8 - 3) := by
  change BitVec.getLsbD (w := 5 + 3 + 8) (op ++ a ++ b) i = _
  simp only [BitVec.getLsbD_append]

/-- Bit `i` of a header read from two bytes. -/
theorem headerOfBytes_getLsbD (hi lo : Byte) (i : Nat) :
    (hi ++ lo : Header).getLsbD i = if i < 8 then lo.getLsbD i else hi.getLsbD (i - 8) := by
  rw [BitVec.getLsbD_append]

@[simp] theorem headerOp_makeHeader (op : BitVec 5) (a : BitVec 3) (b : Byte) : headerOp (makeHeader op a b) = op := by
  unfold headerOp
  ext i hi
  rw [BitVec.getElem_extractLsb', makeHeader_getLsbD, if_neg (by omega), if_neg (by omega),
    show 11 + i - 8 - 3 = i by omega, BitVec.getLsbD_eq_getElem hi]

@[simp] theorem headerA_makeHeader (op : BitVec 5) (a : BitVec 3) (b : Byte) : headerA (makeHeader op a b) = a := by
  unfold headerA
  ext i hi
  rw [BitVec.getElem_extractLsb', makeHeader_getLsbD, if_neg (by omega), if_pos (by omega),
    show 8 + i - 8 = i by omega, BitVec.getLsbD_eq_getElem hi]

@[simp] theorem headerB_makeHeader (op : BitVec 5) (a : BitVec 3) (b : Byte) : headerB (makeHeader op a b) = b := by
  unfold headerB
  ext i hi
  rw [BitVec.getElem_extractLsb', makeHeader_getLsbD, if_pos (by omega), show 0 + i = i by omega,
    BitVec.getLsbD_eq_getElem hi]

/-- A header is the concatenation of its fields. -/
theorem makeHeader_fields (h : Header) : makeHeader (headerOp h) (headerA h) (headerB h) = h := by
  ext i hi
  rw [← BitVec.getLsbD_eq_getElem hi, makeHeader_getLsbD]
  unfold headerOp headerA headerB
  simp only [BitVec.getLsbD_extractLsb']
  split_ifs with h1 h2
  · simp only [h1, Nat.zero_add, decide_true, Bool.true_and]; exact BitVec.getLsbD_eq_getElem hi
  · simp only [h2, show 8 + (i - 8) = i by omega, decide_true, Bool.true_and]; exact BitVec.getLsbD_eq_getElem hi
  · simp only [show 11 + (i - 8 - 3) = i by omega, show i - 8 - 3 < 5 by omega, decide_true, Bool.true_and]
    exact BitVec.getLsbD_eq_getElem hi

/-- A header is its high byte then its low byte. -/
theorem header_of_bytes (h : Header) : (h.extractLsb' 8 8 ++ h.extractLsb' 0 8 : Header) = h := by
  ext i hi
  rw [← BitVec.getLsbD_eq_getElem hi, headerOfBytes_getLsbD]
  simp only [BitVec.getLsbD_extractLsb']
  split_ifs with h1
  · simp only [h1, Nat.zero_add, decide_true, Bool.true_and]; exact BitVec.getLsbD_eq_getElem hi
  · simp only [show 8 + (i - 8) = i by omega, show i - 8 < 8 by omega, decide_true, Bool.true_and]
    exact BitVec.getLsbD_eq_getElem hi

theorem reservedOp_toNat (op : BitVec 4) : (1#1 ++ op : BitVec 5).toNat = 16 + op.toNat := by
  revert op; decide

theorem reservedOp_low (op : BitVec 4) : (1#1 ++ op : BitVec 5).extractLsb' 0 4 = op := by
  revert op; decide

/-- Decoding the request that carries an instruction gives the instruction: no bit of a field is lost. -/
theorem decodeRequest_encodeRequest (i : Instr) : decodeRequest (encodeRequest i) = i := by
  cases i with
  | reserved op a b =>
    simp only [decodeRequest, encodeRequest, instrOp, headerOp_makeHeader, headerA_makeHeader, headerB_makeHeader,
      reservedOp_toNat, reservedOp_low]
    split <;> first | omega | rfl
  | _ => simp [decodeRequest, encodeRequest, instrOp]

theorem reservedOp_of_le (op : BitVec 5) (h : 16 ≤ op.toNat) : (1#1 ++ op.extractLsb' 0 4 : BitVec 5) = op := by
  revert op; decide

/-- Decoding a request keeps its OP. -/
theorem instrOp_decodeRequest (r : Request) : instrOp (decodeRequest r) = headerOp r.header := by
  unfold decodeRequest
  dsimp only
  generalize headerOp r.header = op
  split <;> first
    | (rename_i h; exact BitVec.eq_of_toNat_eq h.symm)
    | (refine reservedOp_of_le op ?_
       by_contra hc
       have h16 : op.toNat < 16 := by omega
       generalize op.toNat = n at *
       interval_cases n <;> simp_all)

end Sys2Proof
end

