-- ==== Sys2Proof/Laws/Plans.lean ====
section
/-! SUPPORT. The lengths of the plans' building blocks, that all but raw reads are writes, and that a parsed text is no
longer than its payload. -/

namespace Sys2Proof.Machine

@[simp] theorem nibItems_length (c : Config) (bl : Bool) (d : Nibble) (rs : Bool) (e : Nat) (m : Option (Byte × Bool)) :
    (nibItems c bl d rs e m).length = 2 := rfl

@[simp] theorem byteItemsWith_length (c : Config) (bl : Bool) (b : Byte) (rs : Bool) (e : Nat) :
    (byteItemsWith c bl b rs e).length = 4 := rfl

@[simp] theorem byteItems_length (c : Config) (bl : Bool) (b : Byte) (rs : Bool) : (byteItems c bl b rs).length = 4 :=
  rfl

@[simp] theorem textItems_length (c : Config) (bl : Bool) (t : List Byte) :
    (textItems c bl t).length = 4 * t.length := by
  induction t with
  | nil => rfl
  | cons x t ih => simp [textItems, ih]; omega

theorem lineItems_length_le (c : Config) (bl : Bool) (k : BitVec 3) : (lineItems c bl k).length ≤ 4 := by
  unfold lineItems; split <;> simp

@[simp] theorem slotItems_length (c : Config) (bl : Bool) (p : List Byte) (s : Nat) :
    (slotItems c bl p s).length = 36 := by
  simp [slotItems, glyphRows]

/-- Every item of the list is a write. -/
def AllWrites (l : List Item) : Prop := ∀ it ∈ l, it.kind ≠ .rawr

theorem allWrites_append {l m : List Item} (hl : AllWrites l) (hm : AllWrites m) : AllWrites (l ++ m) := fun it h =>
  (List.mem_append.1 h).elim (hl it) (hm it)

theorem allWrites_nib (c : Config) (bl : Bool) (d : Nibble) (rs : Bool) (e : Nat) (m : Option (Byte × Bool)) :
    AllWrites (nibItems c bl d rs e m) := by
  simp [AllWrites, nibItems]

theorem allWrites_byteWith (c : Config) (bl : Bool) (b : Byte) (rs : Bool) (e : Nat) :
    AllWrites (byteItemsWith c bl b rs e) :=
  allWrites_append (allWrites_nib _ _ _ _ _ _) (allWrites_nib _ _ _ _ _ _)

theorem allWrites_text (c : Config) (bl : Bool) (t : List Byte) : AllWrites (textItems c bl t) := by
  induction t with
  | nil => exact fun _ h => nomatch h
  | cons x t ih => exact allWrites_append (allWrites_byteWith _ _ _ _ _) ih

theorem allWrites_line (c : Config) (bl : Bool) (k : BitVec 3) : AllWrites (lineItems c bl k) := by
  unfold lineItems
  split
  · exact allWrites_byteWith _ _ _ _ _
  · exact fun _ h => nomatch h

theorem allWrites_init (c : Config) (bl : Bool) : AllWrites (initPlan c bl) := by
  unfold initPlan
  repeat' apply allWrites_append
  all_goals exact allWrites_nib _ _ _ _ _ _

theorem allWrites_glyph (c : Config) (bl : Bool) (p : List Byte) : AllWrites (glyphPlan c bl p) := by
  intro it h
  obtain ⟨slot, -, h⟩ := List.mem_flatMap.1 h
  exact allWrites_append (allWrites_byteWith _ _ _ _ _) (allWrites_text _ _ _) it h

/-- A request's plan is all writes, or it is one raw read (43_transport.md R186 to R188). -/
theorem requestPlan_writes_or_read (c : Config) (bl : Bool) (i : Instr) :
    AllWrites (requestPlan c bl i) ∨ (requestPlan c bl i).length = 1 := by
  cases i with
  | init a b p => exact .inl (allWrites_init c bl)
  | wcmd a b p => exact .inl (allWrites_byteWith _ _ _ _ _)
  | wdata a b p => exact .inl (allWrites_byteWith _ _ _ _ _)
  | nibble a b p => exact .inl (allWrites_nib _ _ _ _ _ _)
  | setline a b p => exact .inl (allWrites_line c bl a)
  | wline a b p => exact .inl (allWrites_append (allWrites_line _ _ _) (allWrites_text _ _ _))
  | wext a b p => exact .inl (allWrites_append (allWrites_line _ _ _) (allWrites_text _ _ _))
  | ldglyph a b p => exact .inl (allWrites_glyph c bl p)
  | rdstat a b p => exact .inl fun _ h => nomatch h
  | reserved op a b => exact .inl fun _ h => nomatch h
  | _ => exact .inr rfl

/-- What comes before an item of a request's plan is all writes. -/
theorem requestPlan_take_writes {c : Config} {bl : Bool} {i : Instr} {n : Nat} (h : n < (requestPlan c bl i).length) :
    AllWrites ((requestPlan c bl i).take n) := by
  rcases requestPlan_writes_or_read c bl i with hw | h1
  · exact fun it hit => hw it (List.mem_of_mem_take hit)
  · rw [show n = 0 by omega]
    exact fun _ hit => by simp at hit

theorem parseFrom_length_le (u : Bool) (k : Nat) (p : List Byte) : (parseFrom u k p).length ≤ p.length := by
  induction p generalizing k with
  | nil => cases k <;> simp [parseFrom]
  | cons c t ih =>
    cases k with
    | zero =>
      unfold parseFrom
      split
      · simpa using ih 5
      · simpa using ih 0
    | succ k => exact (ih k).trans (by simp)

theorem parseText_length_le (u : Bool) (p : List Byte) : (parseText u p).length ≤ p.length := parseFrom_length_le u 0 p

end Sys2Proof.Machine
end

