-- ==== Sys2Proof/Laws/Exec.lean ====
section
/-! SUPPORT. Every meaning is `takeRequest`, with PreEffects that write PSTATE, BL and DESYNC at most, and with the plan
`requestPlan`. -/

namespace Sys2Proof.Machine

/-- Every instruction takes its request with some PreEffects, its plan and some immediate answer. -/
theorem exec_takes (i : Instr) (s : State) :
    ∃ (pre : State → State) (plan : State → List Item) (ans : List Byte), exec i s = takeRequest i pre plan ans s ∧
      (∀ t, plan (pre t) = requestPlan (pre t).cfg (pre t).bl i) ∧
      (∀ t : State, pre t = { t with pstate := (pre t).pstate, bl := (pre t).bl, desync := (pre t).desync }) ∧
      (∀ t : State, (pre t).pstate = if isInit i then .initializing else t.pstate) := by
  cases i with
  | init a b p =>
    exact ⟨fun t => { t with pstate := .initializing }, fun t => initPlan t.cfg t.bl, [], rfl, fun _ => rfl,
      fun _ => rfl, fun _ => rfl⟩
  | nibble a b p =>
    exact ⟨fun t => { t with desync := true }, fun t => nibItems t.cfg t.bl (lowNibble b) (a.getLsbD 0) 0 none, [], rfl,
      fun _ => rfl, fun _ => rfl, fun _ => rfl⟩
  | bkl a b p =>
    exact ⟨fun t => { t with bl := backlightMode a t.bl }, fun t => backlightPlan t.cfg t.bl, [], rfl, fun _ => rfl,
      fun _ => rfl, fun _ => rfl⟩
  | reserved op a b => exact ⟨noPre, fun _ => [], [], rfl, fun _ => rfl, fun _ => rfl, fun _ => rfl⟩
  | _ => exact ⟨noPre, fun t => requestPlan t.cfg t.bl _, _, rfl, fun _ => rfl, fun _ => rfl, fun _ => rfl⟩

/-- exec always answers a next state: every refusal of a request is a response. -/
theorem exec_next (i : Instr) (s : State) : ∃ t, exec i s = .next t := by
  obtain ⟨pre, plan, ans, he, -⟩ := exec_takes i s
  rw [he]
  rcases takeRequest_cases i pre plan ans s with ⟨_, _, h⟩ | ⟨_, _, h⟩ | ⟨_, h⟩ <;> exact ⟨_, h⟩

/-- The plan of a request with legal operands has at most 1024 items (41_sequencer.md R153). -/
theorem requestPlan_length_le (c : Config) (bl : Bool) (i : Instr) (h : legalOperands c i = true) :
    (requestPlan c bl i).length ≤ 1024 := by
  cases i with
  | wline a b p =>
    simp only [legalOperands, Bool.and_eq_true, decide_eq_true_eq, beq_iff_eq] at h
    have := lineItems_length_le c bl a
    have := b.isLt
    simp [requestPlan]; omega
  | wext a b p =>
    simp only [legalOperands, Bool.and_eq_true, decide_eq_true_eq, beq_iff_eq] at h
    have := lineItems_length_le c bl a
    have := b.isLt
    have := parseText_length_le c.escAcceptUpperX p
    simp [requestPlan]; omega
  | setline a b p => exact (lineItems_length_le c bl a).trans (by omega)
  | ldglyph a b p => simp [requestPlan, glyphPlan, List.range_succ]
  | init a b p => simp [requestPlan, initPlan]
  | _ => simp [requestPlan, backlightPlan, rawWrite, rawRead]

end Sys2Proof.Machine
end

