-- ==== Sys2Proof/Laws/PerInstr.lean ====
section
/-! SUPPORT. The family Carries: what a request carries of an instruction, one lemma per constructor. -/

namespace Sys2Proof.Laws.Carries

open Sys2Proof

/-- The request that carries `i` decodes to `i`, its header has the OP of the opcode map (30_encoding.md R100), and where
`i` is framed its byte stream is two bytes longer than the payload R103 gives its header. -/
def Statement (i : Instr) : Prop :=
  decodeRequest (encodeRequest i) = i ∧ headerOp (encodeRequest i).header = instrOp i ∧
    (i.framed = true → (encode i).length =
      2 + payloadLength (encodeRequest i).header (encodeRequest i).payload)

theorem framed_length (i : Instr) (h : i.framed = true) :
    (encodeRequest i).payload.length = payloadLength (encodeRequest i).header (encodeRequest i).payload := by
  cases i with
  | reserved op a b =>
    simp only [payloadLength, encodeRequest, instrOp, headerOp_makeHeader, reservedOp_toNat]
    split <;> first | omega | rfl
  | xwblk a b p =>
    cases p with
    | nil => simp [Instr.framed, countedPayload] at h
    | cons l d =>
      simp only [Instr.framed, countedPayload, beq_iff_eq] at h
      simp [payloadLength, encodeRequest, instrOp, h]; omega
  | _ => simp_all [payloadLength, encodeRequest, instrOp, Instr.framed]

theorem headerOp_encode (i : Instr) : headerOp (encodeRequest i).header = instrOp i := by
  cases i <;> simp [encodeRequest]

theorem of_instr (i : Instr) : Statement i :=
  ⟨decodeRequest_encodeRequest i, headerOp_encode i, fun h => by
    rw [← framed_length i h]; simp [encode, requestBytes]; omega⟩

theorem init (a : BitVec 3) (b : Byte) (p : List Byte) : Statement (.init a b p) := of_instr _
theorem wcmd (a : BitVec 3) (b : Byte) (p : List Byte) : Statement (.wcmd a b p) := of_instr _
theorem wdata (a : BitVec 3) (b : Byte) (p : List Byte) : Statement (.wdata a b p) := of_instr _
theorem nibble (a : BitVec 3) (b : Byte) (p : List Byte) : Statement (.nibble a b p) := of_instr _
theorem setline (a : BitVec 3) (b : Byte) (p : List Byte) : Statement (.setline a b p) := of_instr _
theorem wline (a : BitVec 3) (b : Byte) (p : List Byte) : Statement (.wline a b p) := of_instr _
theorem wext (a : BitVec 3) (b : Byte) (p : List Byte) : Statement (.wext a b p) := of_instr _
theorem bkl (a : BitVec 3) (b : Byte) (p : List Byte) : Statement (.bkl a b p) := of_instr _
theorem ldglyph (a : BitVec 3) (b : Byte) (p : List Byte) : Statement (.ldglyph a b p) := of_instr _
theorem rdstat (a : BitVec 3) (b : Byte) (p : List Byte) : Statement (.rdstat a b p) := of_instr _
theorem xwb (a : BitVec 3) (b : Byte) (p : List Byte) : Statement (.xwb a b p) := of_instr _
theorem xwr (a : BitVec 3) (b : Byte) (p : List Byte) : Statement (.xwr a b p) := of_instr _
theorem xwblk (a : BitVec 3) (b : Byte) (p : List Byte) : Statement (.xwblk a b p) := of_instr _
theorem xrb (a : BitVec 3) (b : Byte) (p : List Byte) : Statement (.xrb a b p) := of_instr _
theorem xrr (a : BitVec 3) (b : Byte) (p : List Byte) : Statement (.xrr a b p) := of_instr _
theorem xrblk (a : BitVec 3) (b : Byte) (p : List Byte) : Statement (.xrblk a b p) := of_instr _
theorem reserved (op : BitVec 4) (a : BitVec 3) (b : Byte) : Statement (.reserved op a b) := of_instr _

end Sys2Proof.Laws.Carries
end

