-- ==== Sys2Proof/Laws/Sequencer.lean ====
section
/-! SUPPORT. Everything a step of a running plan, and a step of the machine, can do. -/

namespace Sys2Proof.Machine

/-- The snoop reads and writes none of what the end of a transaction writes. -/
theorem snoop_with (b : Byte) (s : State) (f : Option Item) (m : Nat) (q : BitVec 11) (d : List Byte)
    (a : List BusAnswer) (n : Nat) (tr : List Tx) (di : Display) :
    snoop b { s with flight := f, tmr := m, seq := q, rdata := d, answers := a, draws := n, trace := tr, display := di } =
      { snoop b s with
        flight := f, tmr := m, seq := q, rdata := d, answers := a, draws := n, trace := tr, display := di } := by
  unfold snoop
  split_ifs <;> rfl

/-- An item that ended `ok`: everything it does (41_sequencer.md R141). -/
theorem itemDone_eq (i : Instr) (it : Item) (data : List Byte) (s : State) :
    itemDone i it data s =
      { (match it.done with
          | some (b, false) => snoop b s
          | _ => s) with
        flight := none, tmr := it.gap, seq := s.seq + 1, rdata := data, answers := s.answers.tail, draws := s.draws + 1,
        trace := s.trace ++ [itemTx i it s .ok], display := displayDone s.cfg i it s.display } := by
  unfold itemDone snoopItem
  cases it.done with
  | none => rfl
  | some m =>
    obtain ⟨b, rs⟩ := m
    cases rs
    · exact snoop_with b s none it.gap (s.seq + 1) data s.answers.tail (s.draws + 1)
        (s.trace ++ [itemTx i it s .ok]) (displayDone s.cfg i it s.display)
    · rfl

/-- Everything the environment's answer to the transaction on the bus can do (41_sequencer.md R141, 43_transport.md
R192). -/
theorem answerItem_cases (i : Instr) (it : Item) (s : State) :
    (nextAnswer s = .never ∧ answerItem i it s = s) ∨
      (nextAnswer s = .fail ∧ answerItem i it s = itemFailed i it s) ∨
      (∃ bs data, nextAnswer s = .ok bs ∧ itemData s i it bs = some data ∧ answerItem i it s = itemDone i it data s) ∨
      (∃ bs, nextAnswer s = .ok bs ∧ itemData s i it bs = none ∧ answerItem i it s = itemFailed i it s) := by
  unfold answerItem
  cases h : nextAnswer s with
  | never => exact .inl ⟨rfl, rfl⟩
  | fail => exact .inr (.inl ⟨rfl, rfl⟩)
  | ok bs =>
    cases h2 : itemData s i it bs with
    | some data => exact .inr (.inr (.inl ⟨bs, data, rfl, h2, by simp [h2]⟩))
    | none => exact .inr (.inr (.inr ⟨bs, rfl, h2, by simp [h2]⟩))

/-- Everything one step of `Run()` can do, if it answers a next state. -/
theorem runStep_cases {s t : State} (h : runStep s = .next t) :
    ∃ r, s.req = some r ∧
      ((∃ it, s.flight = some it ∧ t = answerItem (decodeRequest r) it s) ∨
        (s.flight = none ∧ s.tmr ≠ 0 ∧ t = { s with tmr := 0 }) ∨
        (s.flight = none ∧ s.tmr = 0 ∧ s.aborting = true ∧ t = abortRequest (decodeRequest r) s) ∨
        (∃ it, s.flight = none ∧ s.tmr = 0 ∧ s.aborting = false ∧ s.plan[s.seq.toNat]? = some it ∧
          t = { s with flight := some it }) ∨
        (s.flight = none ∧ s.tmr = 0 ∧ s.aborting = false ∧ s.plan[s.seq.toNat]? = none ∧
          t = finishRequest (decodeRequest r) s)) := by
  unfold runStep at h
  cases hr : s.req with
  | none => rw [hr] at h; cases h
  | some r =>
    rw [hr] at h
    refine ⟨r, rfl, ?_⟩
    cases hf : s.flight with
    | some it => rw [hf] at h; cases h; exact .inl ⟨it, rfl, rfl⟩
    | none =>
      rw [hf] at h
      dsimp only at h
      split_ifs at h with h1 h2
      · cases h; exact .inr (.inl ⟨rfl, h1, rfl⟩)
      · cases h; exact .inr (.inr (.inl ⟨rfl, by omega, h2, rfl⟩))
      · have ha : s.aborting = false := by simpa using h2
        cases hp : s.plan[s.seq.toNat]? with
        | some it => rw [hp] at h; cases h; exact .inr (.inr (.inr (.inl ⟨it, rfl, by omega, ha, rfl, rfl⟩)))
        | none => rw [hp] at h; cases h; exact .inr (.inr (.inr (.inr ⟨rfl, by omega, ha, rfl, rfl⟩)))

/-- Everything one step can do, if it answers a next state. -/
theorem step_cases {s t : State} (h : step s = .next t) :
    configLegal s.cfg = true ∧
      ((s.rst = true ∧ t = applyReset s) ∨
        (s.rst = false ∧ s.busy = true ∧ runStep s = .next t) ∨
        (∃ i u, s.rst = false ∧ s.busy = false ∧ fetchRequest s = some (i, u) ∧ exec i u = .next t) ∨
        (s.rst = false ∧ s.busy = false ∧ fetchRequest s = none ∧ t = idleStep s)) := by
  unfold step at h
  split_ifs at h with h1 h2 h3
  · cases h; exact ⟨by simpa using h1, .inl ⟨h2, rfl⟩⟩
  · exact ⟨by simpa using h1, .inr (.inl ⟨by simpa using h2, h3, h⟩)⟩
  · refine ⟨by simpa using h1, .inr (.inr ?_)⟩
    cases hf : fetchRequest s with
    | some iu =>
      obtain ⟨i, u⟩ := iu
      rw [hf] at h
      exact .inl ⟨i, u, by simpa using h2, by simpa using h3, rfl, h⟩
    | none =>
      rw [hf] at h
      cases h
      exact .inr ⟨by simpa using h2, by simpa using h3, rfl, rfl⟩

/-- Taking a request off its port changes the port only. -/
theorem fetchRequest_state {s u : State} {i : Instr} (h : fetchRequest s = some (i, u)) :
    u = { s with port := u.port, rx := u.rx } := by
  unfold fetchRequest at h
  split at h
  · cases h; rfl
  · split at h
    · cases h; rfl
    · cases h

end Sys2Proof.Machine
end

