-- ==== Sys2Proof/Laws/Run.lean ====
section
/-! SUPPORT. Running a plan over many steps: from a busy block with nothing on the bus, every item that completes is one
`itemRun`. -/

namespace Sys2Proof.Machine

theorem reaches_refl (s : State) : Reaches s s := ⟨0, rfl⟩

theorem reaches_of_step {s t u : State} (h : step s = .next t) (hr : Reaches t u) : Reaches s u := by
  obtain ⟨k, hk⟩ := hr
  refine ⟨k + 1, ?_⟩
  have hs : Sys2Proof.core.step s = .next t := h
  simp only [Host.Core.run, hs]
  exact hk

theorem reaches_trans {s t u : State} (h : Reaches s t) (h' : Reaches t u) : Reaches s u := by
  obtain ⟨k, hk⟩ := h
  induction k generalizing s with
  | zero => cases hk; exact h'
  | succ k ih =>
    simp only [Host.Core.run] at hk
    split at hk
    · exact reaches_of_step (by assumption) (ih hk)
    · cases hk
    · cases hk

/-- A block that runs the request `r`, with nothing on the bus, no gap to wait out and no failure pending. -/
def Running (r : Request) (s : State) : Prop :=
  configLegal s.cfg = true ∧ s.rst = false ∧ s.busy = true ∧ s.req = some r ∧ s.flight = none ∧ s.aborting = false ∧
    s.tmr = 0

/-- The write `it` put on the bus, completed, and its gap waited out. -/
def itemRun (i : Instr) (s : State) (it : Item) : State := { itemDone i it s.rdata s with tmr := 0 }

/-- Writes completed one after another. -/
def itemsRun (i : Instr) (l : List Item) (s : State) : State := l.foldl (itemRun i) s

theorem step_running {r : Request} {s : State} (h : Running r s) : step s = runStep s := by
  obtain ⟨hc, hr, hb, -⟩ := h
  simp [step, hc, hr, hb]

theorem step_wait {r : Request} {s : State} (h : Running r { s with tmr := 0 }) (ht : s.tmr ≠ 0) :
    step s = .next { s with tmr := 0 } := by
  obtain ⟨hc, hr, hb, hq, hf, -⟩ := h
  simp only at hc hr hb hq hf
  simp [step, hc, hr, hb, runStep, hq, hf, ht]

/-- Waiting out a gap, if there is one. -/
theorem reaches_wait {r : Request} {s : State} (h : Running r { s with tmr := 0 }) : Reaches s { s with tmr := 0 } := by
  by_cases ht : s.tmr = 0
  · have e : { s with tmr := 0 } = s := by cases s; cases ht; rfl
    rw [e]; exact reaches_refl s
  · exact reaches_of_step (step_wait h ht) (reaches_refl _)

theorem step_issue {r : Request} {s : State} {it : Item} (h : Running r s) (hp : s.plan[s.seq.toNat]? = some it) :
    step s = .next { s with flight := some it } := by
  rw [step_running h]
  obtain ⟨hc, hr, hb, hq, hf, ha, ht⟩ := h
  simp [runStep, hq, hf, ha, ht, hp]

theorem step_finish {r : Request} {s : State} (h : Running r s) (hp : s.plan[s.seq.toNat]? = none) :
    step s = .next (finishRequest (decodeRequest r) s) := by
  rw [step_running h]
  obtain ⟨hc, hr, hb, hq, hf, ha, ht⟩ := h
  simp [runStep, hq, hf, ha, ht, hp]

theorem step_onBus {s : State} {r : Request} {it : Item} (h : OnBus s r it) :
    step s = .next (answerItem (decodeRequest r) it s) := by
  obtain ⟨hc, hr, hb, hq, hf⟩ := h
  simp [step, hc, hr, hb, runStep, hq, hf]

theorem answerItem_ok {i : Instr} {it : Item} {s : State} {bs : List Byte} {rest : List BusAnswer}
    (ha : s.answers = .ok bs :: rest) (hk : it.kind ≠ .rawr) : answerItem i it s = itemDone i it s.rdata s := by
  simp only [answerItem, nextAnswer, ha, itemData]
  cases h : it.kind <;> first | exact absurd h hk | rfl

theorem answerItem_fail {i : Instr} {it : Item} {s : State} {rest : List BusAnswer} (ha : s.answers = .fail :: rest) :
    answerItem i it s = itemFailed i it s := by
  simp only [answerItem, nextAnswer, ha]

theorem running_itemRun {r : Request} {s : State} (i : Instr) (it : Item) (h : Running r s) :
    Running r (itemRun i s it) := by
  obtain ⟨hc, hr, hb, hq, hf, ha, ht⟩ := h
  simp [Running, itemRun, itemDone, hc, hr, hb, hq, ha]

/-- One write that completes. -/
theorem reaches_item {r : Request} {s : State} {it : Item} {bs : List Byte} {rest : List BusAnswer} (h : Running r s)
    (hp : s.plan[s.seq.toNat]? = some it) (ha : s.answers = .ok bs :: rest) (hk : it.kind ≠ .rawr) :
    Reaches s (itemRun (decodeRequest r) s it) := by
  have h' := h
  obtain ⟨hc, hr, hb, hq, hf, hab, ht⟩ := h
  refine reaches_of_step (step_issue h' hp) ?_
  have ho : OnBus { s with flight := some it } r it := ⟨hc, hr, hb, hq, rfl⟩
  refine reaches_of_step (step_onBus ho) ?_
  rw [answerItem_ok (s := { s with flight := some it }) (rest := rest) (bs := bs) ha hk]
  have e : itemRun (decodeRequest r) s it =
      { itemDone (decodeRequest r) it s.rdata { s with flight := some it } with tmr := 0 } := rfl
  rw [e]
  exact reaches_wait (e ▸ running_itemRun _ _ h')

/-- Any number of writes that complete, one after another. -/
theorem reaches_items {r : Request} (l : List Item) (s : State) (rest : List BusAnswer) (h : Running r s)
    (hp : ∀ n, n < l.length → s.plan[s.seq.toNat + n]? = l[n]?) (hs : s.seq.toNat + l.length < 2048)
    (hk : ∀ it ∈ l, it.kind ≠ .rawr) (ha : AnswersOk s l.length rest) :
    Reaches s (itemsRun (decodeRequest r) l s) := by
  induction l generalizing s with
  | nil => exact reaches_refl s
  | cons it l ih =>
    obtain ⟨oks, ha1, ha2, ha3⟩ := ha
    cases oks with
    | nil => simp at ha2
    | cons a oks =>
      obtain ⟨bs, rfl⟩ := ha3 a (by simp)
      have hp0 := hp 0 (by simp)
      have hit := reaches_item h (by simpa using hp0) ha1 (hk it (by simp))
      refine reaches_trans hit ?_
      have e : (s.seq + 1).toNat = s.seq.toNat + 1 := by simp [BitVec.toNat_add] at hs ⊢; omega
      refine ih (itemRun (decodeRequest r) s it) (running_itemRun _ _ h) ?_ ?_ ?_ ?_
      · intro n hn
        have := hp (n + 1) (by simp; omega)
        simp only [itemRun, itemDone, snoopItem_plan, snoopItem_seq, e]
        rw [show s.seq.toNat + 1 + n = s.seq.toNat + (n + 1) by omega]
        simpa using this
      · simp only [itemRun, itemDone, snoopItem_seq, e]; simp at hs; omega
      · exact fun it' h' => hk it' (by simp [h'])
      · refine ⟨oks, ?_, by simpa using ha2, fun a h => ha3 a (by simp [h])⟩
        simp [itemRun, itemDone, dropAnswer, ha1]

/-- The fields writes do not touch, and what they leave in the others. -/
theorem itemsRun_frame (i : Instr) (l : List Item) (s : State) :
    itemsRun i l s = { itemsRun i l s with
      cfg := s.cfg, pstate := s.pstate, bl := s.bl, cgValid := s.cgValid, lastErr := s.lastErr, addr := s.addr,
      addrOk := s.addrOk, busSel := s.busSel, busy := s.busy, plan := s.plan,
      seq := s.seq + BitVec.ofNat 11 l.length, req := s.req, aborting := s.aborting, rdata := s.rdata, rst := s.rst,
      port := s.port, rx := s.rx, answers := s.answers.drop l.length, probes := s.probes,
      draws := s.draws + l.length, trace := s.trace ++ planTrace i s l, responses := s.responses, display := latchAll s.cfg i l s.display } := by
  induction l generalizing s with
  | nil => simp [itemsRun, planTrace, latchAll]
  | cons it l ih =>
    have hf := ih (itemRun i s it)
    have hseq : s.seq + 1 + BitVec.ofNat 11 l.length = s.seq + BitVec.ofNat 11 (it :: l).length := by
      apply BitVec.eq_of_toNat_eq
      simp [BitVec.toNat_add]
      omega
    rw [show itemsRun i (it :: l) s = itemsRun i l (itemRun i s it) from rfl]
    refine hf.trans ?_
    simp only [State.mk.injEq, itemRun, itemDone, snoopItem_cfg]
    refine ⟨?_, ?_, ?_, ?_, ?_, ?_, ?_, ?_, ?_, ?_, ?_, ?_, ?_, ?_, ?_, ?_, ?_, ?_, ?_, ?_, ?_, ?_, ?_, ?_, ?_, ?_, ?_, ?_,
      ?_, ?_, ?_, ?_⟩ <;> first
      | rfl
      | (rw [← hseq]; simp)
      | (simp [planTrace, latchAll, itemTx, Nat.add_assoc, Nat.add_comm 1])

theorem running_itemsRun {r : Request} (i : Instr) (l : List Item) (s : State) (h : Running r s) :
    Running r (itemsRun i l s) := by
  induction l generalizing s with
  | nil => exact h
  | cons it l ih => exact ih _ (running_itemRun i it h)

/-- A request taken with a plan runs that plan from its first item, once the gap still running is waited out. -/
theorem exec_running {i : Instr} {s t : State} (h : AtRest s) (he : exec i s = .next t) (hb : t.busy = true) :
    Running (encodeRequest i) { t with tmr := 0 } ∧ t.plan.length ≤ 1024 ∧
      t = { s with
        pstate := if isInit i then .initializing else s.pstate, bl := t.bl, desync := t.desync, busy := true,
        plan := requestPlan s.cfg t.bl i, seq := 0, req := some (encodeRequest i), rdata := [] } := by
  obtain ⟨hc, hr, hbs, hf, ha⟩ := h
  obtain ⟨pre, plan, ans, he', hplan, hpre, hps⟩ := exec_takes i s
  rw [he'] at he
  rcases takeRequest_cases i pre plan ans s with ⟨hok, hne, h'⟩ | ⟨-, -, h'⟩ | ⟨-, h'⟩ <;> rw [h'] at he <;> cases he
  · have hp := hpre { s with req := some (encodeRequest i), busy := true }
    have hps' := hps { s with req := some (encodeRequest i), busy := true }
    have hplan' := hplan { s with req := some (encodeRequest i), busy := true }
    simp only [takenState] at hb ⊢
    generalize pre { s with req := some (encodeRequest i), busy := true } = u at *
    have hcfg : u.cfg = s.cfg := by rw [hp]
    refine ⟨?_, ?_, ?_⟩
    · rw [hp]; exact ⟨hc, hr, rfl, rfl, hf, ha, rfl⟩
    · rw [hplan']
      exact requestPlan_length_le _ _ _ (by rw [hcfg]; exact ((acceptCheck_ok_iff i s).1 hok).2.1)
    · rw [hplan', hcfg]
      simp only at hps'
      rw [← hps']
      conv_lhs => rw [hp]
  · simp at hb
  · simp [raiseError] at hb

/-- A request of writes that all complete reaches its end. -/
theorem reaches_done {i : Instr} {s t : State} {rest : List BusAnswer} (h : AtRest s) (he : exec i s = .next t)
    (hb : t.busy = true) (hk : ∀ it ∈ t.plan, it.kind ≠ .rawr) (ha : AnswersOk s t.plan.length rest) :
    Reaches t (finishRequest i (itemsRun i t.plan { t with tmr := 0 })) := by
  obtain ⟨hrun, hlen, ht⟩ := exec_running h he hb
  have hseq : t.seq = 0 := by rw [ht]
  refine reaches_trans (reaches_wait hrun) ?_
  have hi := reaches_items t.plan { t with tmr := 0 } rest hrun (by simp [hseq]) (by simp [hseq]; omega) hk
    (by obtain ⟨oks, h1, h2⟩ := ha; exact ⟨oks, by rw [ht]; exact h1, h2⟩)
  rw [decodeRequest_encodeRequest] at hi
  refine reaches_trans hi ?_
  have hr' := running_itemsRun i t.plan _ hrun
  have hfin := step_finish hr' (by
    rw [itemsRun_frame]
    simp [hseq, BitVec.toNat_ofNat]
    omega)
  rw [decodeRequest_encodeRequest] at hfin
  exact reaches_of_step hfin (reaches_refl _)

/-- A request whose transaction `n` is the first to fail ends there with its error. -/
theorem reaches_failed {i : Instr} {s t : State} {n : Nat} {it : Item} {rest : List BusAnswer} (h : AtRest s)
    (he : exec i s = .next t) (hb : t.busy = true) (hn : t.plan[n]? = some it) (ha : AnswersOk s n (.fail :: rest)) :
    Reaches t (abortRequest i
      { itemFailed i it (itemsRun i (t.plan.take n) { t with tmr := 0 }) with tmr := 0 }) := by
  obtain ⟨hrun, hlen, ht⟩ := exec_running h he hb
  have hseq : t.seq = 0 := by rw [ht]
  have hnl : n < t.plan.length := by
    by_contra hc
    rw [List.getElem?_eq_none (by omega)] at hn
    cases hn
  have htake : (t.plan.take n).length = n := by simp; omega
  have hw : AllWrites (t.plan.take n) := by
    rw [ht] at hnl ⊢
    exact requestPlan_take_writes hnl
  refine reaches_trans (reaches_wait hrun) ?_
  obtain ⟨oks, ha1, ha2, ha3⟩ := ha
  have hi := reaches_items (t.plan.take n) { t with tmr := 0 } (.fail :: rest) hrun
    (by intro m hm; rw [htake] at hm; simp [hseq, hm]) (by simp [hseq]; omega)
    hw (by rw [htake]; exact ⟨oks, by rw [ht]; exact ha1, ha2, ha3⟩)
  rw [decodeRequest_encodeRequest] at hi
  refine reaches_trans hi ?_
  have hr' := running_itemsRun i (t.plan.take n) _ hrun
  have hfr := itemsRun_frame i (t.plan.take n) { t with tmr := 0 }
  rw [htake] at hfr
  generalize itemsRun i (t.plan.take n) { t with tmr := 0 } = u at hr' hfr ⊢
  have hpu : u.plan[u.seq.toNat]? = some it := by
    rw [hfr]
    have e : ((0 : BitVec 11) + BitVec.ofNat 11 n).toNat = n := by simp [BitVec.toNat_ofNat]; omega
    simp only [hseq, e]
    exact hn
  have hau : u.answers = .fail :: rest := by
    rw [hfr]
    dsimp only
    rw [show t.answers = s.answers by rw [ht], ha1, ← ha2]
    simp
  refine reaches_of_step (step_issue hr' hpu) ?_
  obtain ⟨hc, hrs, hbu, hq, hf, hab, htm⟩ := hr'
  have ho : OnBus { u with flight := some it } (encodeRequest i) it := ⟨hc, hrs, hbu, hq, rfl⟩
  refine reaches_of_step (step_onBus ho) ?_
  rw [decodeRequest_encodeRequest, answerItem_fail (s := { u with flight := some it }) (rest := rest) hau]
  have e : itemFailed i it { u with flight := some it } = itemFailed i it u := rfl
  rw [e]
  have hq' : ∀ v, v = itemFailed i it u → v.req = some (encodeRequest i) ∧ v.busy = true ∧ v.aborting = true ∧
      v.flight = none ∧ v.rst = false ∧ configLegal v.cfg = true := by
    rintro v rfl
    simp [itemFailed, hq, hbu, hrs, hc]
  obtain ⟨h1, h2, h3, h4, h5, h6⟩ := hq' _ rfl
  generalize itemFailed i it u = v at h1 h2 h3 h4 h5 h6 ⊢
  have hend : step { v with tmr := 0 } = .next (abortRequest i { v with tmr := 0 }) := by
    simp [step, h6, h5, h2, runStep, h1, h4, h3, decodeRequest_encodeRequest]
  by_cases htv : v.tmr = 0
  · have e' : { v with tmr := 0 } = v := by cases v; cases htv; rfl
    rw [e'] at hend ⊢
    exact reaches_of_step hend (reaches_refl _)
  · refine reaches_of_step (t := { v with tmr := 0 }) ?_ (reaches_of_step hend (reaches_refl _))
    simp [step, h6, h5, h2, runStep, h1, h4, htv]

end Sys2Proof.Machine
end

