-- ==== Sys2Proof/Tests/Slice0.lean ====
section
/-! SUPPORT. Tests. Expected values come from the spec: the opcode map (30_encoding.md R100), the vectors of
95_test_vectors.md (named L.., A.., B.., C.., D.., E.., F..) and the rules named. The witnesses show, for every
obligation with hypotheses, states and operands that meet them together. -/

namespace Sys2Proof.Tests

open Sys2Proof Sys2Proof.Machine

/-! ### WellFormed: each check refuses a term -/

theorem test_wf_init_a : (Instr.init 1 0 []).wellFormed = false := by decide
theorem test_wf_init_b : (Instr.init 0 1 []).wellFormed = false := by decide
theorem test_wf_init_payload : (Instr.init 0 0 [0]).wellFormed = false := by decide
theorem test_wf_wcmd_a : (Instr.wcmd 1 0 []).wellFormed = false := by decide
theorem test_wf_wcmd_payload : (Instr.wcmd 0 0 [0]).wellFormed = false := by decide
theorem test_wf_wdata_a : (Instr.wdata 4 0 []).wellFormed = false := by decide
theorem test_wf_wdata_payload : (Instr.wdata 0 0 [0]).wellFormed = false := by decide
theorem test_wf_nibble_a : (Instr.nibble 2 0 []).wellFormed = false := by decide
theorem test_wf_nibble_b : (Instr.nibble 0 0x10 []).wellFormed = false := by decide
theorem test_wf_nibble_payload : (Instr.nibble 0 0 [0]).wellFormed = false := by decide
theorem test_wf_setline_b : (Instr.setline 1 1 []).wellFormed = false := by decide
theorem test_wf_setline_payload : (Instr.setline 1 0 [0]).wellFormed = false := by decide
theorem test_wf_wline_payload : (Instr.wline 1 2 [0x41]).wellFormed = false := by decide
theorem test_wf_wext_payload : (Instr.wext 1 0 [0x41]).wellFormed = false := by decide
theorem test_wf_bkl_b : (Instr.bkl 0 1 []).wellFormed = false := by decide
theorem test_wf_bkl_payload : (Instr.bkl 0 0 [0]).wellFormed = false := by decide
theorem test_wf_ldglyph_a : (Instr.ldglyph 1 0 (List.replicate 64 0)).wellFormed = false := by decide
theorem test_wf_ldglyph_b : (Instr.ldglyph 0 1 (List.replicate 64 0)).wellFormed = false := by decide
theorem test_wf_ldglyph_payload : (Instr.ldglyph 0 0 (List.replicate 63 0)).wellFormed = false := by decide
theorem test_wf_rdstat_a : (Instr.rdstat 1 0 []).wellFormed = false := by decide
theorem test_wf_rdstat_b : (Instr.rdstat 0 1 []).wellFormed = false := by decide
theorem test_wf_rdstat_payload : (Instr.rdstat 0 0 [0]).wellFormed = false := by decide
theorem test_wf_xwb_a : (Instr.xwb 1 0 []).wellFormed = false := by decide
theorem test_wf_xwb_payload : (Instr.xwb 0 0 [0]).wellFormed = false := by decide
theorem test_wf_xwr_a : (Instr.xwr 1 0 [0]).wellFormed = false := by decide
theorem test_wf_xwr_payload : (Instr.xwr 0 0 []).wellFormed = false := by decide
theorem test_wf_xwblk_a : (Instr.xwblk 1 0 [0]).wellFormed = false := by decide
theorem test_wf_xwblk_count : (Instr.xwblk 0 0 [2, 0xAA]).wellFormed = false := by decide
theorem test_wf_xwblk_empty : (Instr.xwblk 0 0 []).wellFormed = false := by decide
theorem test_wf_xrb_a : (Instr.xrb 1 0 []).wellFormed = false := by decide
theorem test_wf_xrb_b : (Instr.xrb 0 1 []).wellFormed = false := by decide
theorem test_wf_xrb_payload : (Instr.xrb 0 0 [0]).wellFormed = false := by decide
theorem test_wf_xrr_a : (Instr.xrr 1 0 []).wellFormed = false := by decide
theorem test_wf_xrr_payload : (Instr.xrr 0 0 [0]).wellFormed = false := by decide
theorem test_wf_xrblk_a : (Instr.xrblk 1 0 []).wellFormed = false := by decide
theorem test_wf_xrblk_payload : (Instr.xrblk 0 0 [0]).wellFormed = false := by decide
theorem test_wf_accepts : (Instr.wline 1 2 [0x41, 0x42]).wellFormed = true := by decide

/-! ### Decoding: one word per row of the opcode table, OP A B written out bit by bit (R90, R100) -/

theorem test_decode_init : decodeTableWord 16 0b00000_000_00000000 = some (.init 0 0 []) := by decide
theorem test_decode_wcmd : decodeTableWord 16 0b00001_000_10000101 = some (.wcmd 0 0x85 []) := by decide
theorem test_decode_wdata : decodeTableWord 16 0b00010_000_01000001 = some (.wdata 0 0x41 []) := by decide
theorem test_decode_nibble : decodeTableWord 16 0b00011_001_00001111 = some (.nibble 1 0x0F []) := by decide
theorem test_decode_setline : decodeTableWord 16 0b00100_100_00000000 = some (.setline 4 0 []) := by decide
theorem test_decode_wline : decodeTableWord 16 0b00101_001_00000010 = some (.wline 1 2 [0, 0]) := by decide
theorem test_decode_wext : decodeTableWord 16 0b00110_100_00000001 = some (.wext 4 1 [0]) := by decide
theorem test_decode_bkl : decodeTableWord 16 0b00111_010_00000000 = some (.bkl 2 0 []) := by decide
theorem test_decode_ldglyph :
    decodeTableWord 16 0b01000_000_00000000 = some (.ldglyph 0 0 (List.replicate 64 0)) := by decide
theorem test_decode_rdstat : decodeTableWord 16 0b01001_000_00000000 = some (.rdstat 0 0 []) := by decide
theorem test_decode_xwb : decodeTableWord 16 0b01010_000_00001000 = some (.xwb 0 8 []) := by decide
theorem test_decode_xwr : decodeTableWord 16 0b01011_000_00000001 = some (.xwr 0 1 [0]) := by decide
theorem test_decode_xwblk : decodeTableWord 16 0b01100_000_00010000 = some (.xwblk 0 0x10 [0]) := by decide
theorem test_decode_xrb : decodeTableWord 16 0b01101_000_00000000 = some (.xrb 0 0 []) := by decide
theorem test_decode_xrr : decodeTableWord 16 0b01110_000_00100000 = some (.xrr 0 0x20 []) := by decide
theorem test_decode_xrblk : decodeTableWord 16 0b01111_000_00010000 = some (.xrblk 0 0x10 []) := by decide
theorem test_decode_reserved : decodeTableWord 16 0b11111_000_11111111 = some (.reserved 0xF 0 0xFF) := by decide

/-- L3 P1, request 2 on a byte-wide port, with the next request's header behind it. -/
theorem test_decode_stream :
    (match decodeBytes [0x29, 0x02, 0x41, 0x42, 0x48, 0x00] with
      | .ok r => decide (r = (.wline 1 2 [0x41, 0x42], [0x48, 0x00]))
      | .error _ => false) = true := by decide
/-- E5: the count byte of XWBLK frames the rest. -/
theorem test_decode_counted :
    (match decodeBytes [0x60, 0x00, 0x02, 0xAA, 0xBB, 0x48] with
      | .ok r => decide (r = (.xwblk 0 0 [2, 0xAA, 0xBB], [0x48]))
      | .error _ => false) = true := by decide
theorem test_decode_waits :
    (match decodeBytes [0x29, 0x02, 0x41] with
      | .ok _ => false
      | .error e => decide (e = .payloadIncomplete 1)) = true := by decide
theorem test_decode_waits_header :
    (match decodeBytes [0x29] with
      | .ok _ => false
      | .error e => decide (e = .headerIncomplete)) = true := by decide
/-- E4 and P1: encodings as byte streams. -/
theorem test_encode_xwr : encode (.xwr 0 0x01 [0x55]) = [0x58, 0x01, 0x55] := by decide
theorem test_encode_wline : encode (.wline 2 2 [0x37, 0x32]) = [0x2A, 0x02, 0x37, 0x32] := by decide

/-! ### States -/

/-- The common setup of 95_test_vectors.md. -/
def testCfg : Config := { defaultConfig with hwRev := 2 }

/-- "after reset" of 95_test_vectors.md. -/
def afterReset : State := State.resetWith testCfg none

/-- The display after INIT, its latch at INIT's last byte. -/
def initDisplay : Display := displayInitDone { Display.allUnknown with q := some 0x68 }

/-- "READY" of 95_test_vectors.md. -/
def ready : State :=
  { afterReset with
    pstate := .ready, fsN := true, emId := true, acUnk := false, desync := false, display := initDisplay }

/-- After reset with no address (A15, F2). -/
def noAddr : State := State.resetWith { testCfg with defaultAddr := none } none

/-- The state after an outcome. -/
def after (o : Host.Outcome State Fault Refusal) : State :=
  match o with
  | .next t => t
  | .fault _ => afterReset
  | .refused _ => afterReset

def planBytes (s : State) : List Byte := (s.plan.map (fun it => it.bytes)).flatten

def gaps (s : State) : List Nat := s.plan.map (fun it => it.gap)

/-- The request `i` running, its item number `n` (from 0) next. -/
def running (i : Instr) (n : BitVec 11) (s : State) : State :=
  { s with busy := true, req := some (encodeRequest i), plan := requestPlan s.cfg s.bl i, seq := n }

/-- The request `i` with its item number `n` on the bus and the environment's answers given. -/
def onBus (i : Instr) (n : BitVec 11) (answers : List BusAnswer) (s : State) : State :=
  { running i n s with flight := (requestPlan s.cfg s.bl i)[n.toNat]?, answers := answers }

/-! ### One step per instruction -/

/-- L1-10. -/
theorem test_init_bytes :
    planBytes (after (exec (.init 0 0 []) afterReset)) =
      [0x3C, 0x38, 0x3C, 0x38, 0x3C, 0x38, 0x2C, 0x28, 0x2C, 0x28, 0x8C, 0x88, 0x0C, 0x08, 0xCC, 0xC8, 0x0C, 0x08, 0x1C,
        0x18, 0x0C, 0x08, 0x6C, 0x68] := by decide
theorem test_init_gaps :
    gaps (after (exec (.init 0 0 []) afterReset)) =
      [600, 200, 600, 200, 600, 200, 600, 200, 600, 200, 600, 200, 600, 200, 600, 200, 600, 200, 600, 200, 600, 200, 600,
        200200] := by decide
/-- L1-1. -/
theorem test_wcmd_bytes : planBytes (after (exec (.wcmd 0 0xFF []) ready)) = [0xFC, 0xF8, 0xFC, 0xF8] := by decide
/-- C29. -/
theorem test_wcmd_clear_gaps :
    gaps (after (exec (.wcmd 0 0x01 []) { ready with cfg := { testCfg with tLongCmd := 1520 } })) =
      [600, 200, 600, 1720] := by decide
/-- B11, B13. -/
theorem test_wdata_bytes : planBytes (after (exec (.wdata 0 0x41 []) ready)) = [0x4D, 0x49, 0x1D, 0x19] := by decide
theorem test_wdata_dark :
    planBytes (after (exec (.wdata 0 0x41 []) { ready with bl := false })) = [0x45, 0x41, 0x15, 0x11] := by decide
/-- B14. -/
theorem test_nibble_bytes : planBytes (after (exec (.nibble 1 0x0F []) ready)) = [0xFD, 0xF9] := by decide
theorem test_nibble_desync : (after (exec (.nibble 1 0x0F []) ready)).desync = true := by decide
/-- L1-3, A5. -/
theorem test_setline_bytes : planBytes (after (exec (.setline 3 0 []) ready)) = [0x9C, 0x98, 0x4C, 0x48] := by decide
theorem test_setline_refused :
    (after (exec (.setline 5 0 []) ready)).responses = [⟨.badOperand, []⟩] := by decide
/-- L1-3, C9. -/
theorem test_wline_bytes :
    planBytes (after (exec (.wline 1 2 [0x41, 0x42]) ready)) =
      [0x8C, 0x88, 0x0C, 0x08, 0x4D, 0x49, 0x1D, 0x19, 0x4D, 0x49, 0x2D, 0x29] := by decide
theorem test_wline_nothing : (after (exec (.wline 0 0 []) ready)).responses = [⟨.ok, []⟩] := by decide
/-- L1-4, C21. -/
theorem test_wext_bytes :
    planBytes (after (exec (.wext 1 12 [0x7B, 0x30, 0x78, 0x34, 0x31, 0x7D, 0x7B, 0x30, 0x78, 0x34, 0x32, 0x7D]) ready)) =
      [0x8C, 0x88, 0x0C, 0x08, 0x4D, 0x49, 0x1D, 0x19, 0x4D, 0x49, 0x2D, 0x29] := by decide
theorem test_wext_mixed :
    parseText false [0x78, 0x7B, 0x30, 0x78, 0x30, 0x30, 0x7D, 0x79] = [0x78, 0x00, 0x79] := by decide
/-- C25. -/
theorem test_bkl_toggle : planBytes (after (exec (.bkl 2 0 []) ready)) = [0x00] := by decide
theorem test_bkl_flag : (after (exec (.bkl 2 0 []) ready)).bl = false := by decide
/-- D1, slot 1: E0 is masked to 00, FF to 1F. -/
theorem test_ldglyph_slot :
    ((planBytes (after (exec (.ldglyph 0 0 (List.replicate 8 0 ++ [0xE0, 0xFF] ++ List.replicate 54 0)) ready))).drop
        36).take 12 = [0x4C, 0x48, 0x8C, 0x88, 0x0D, 0x09, 0x0D, 0x09, 0x1D, 0x19, 0xFD, 0xF9] := by decide
/-- A12. -/
theorem test_ldglyph_short :
    (after (exec (.ldglyph 0 0 (List.replicate 63 0)) ready)).responses = [⟨.badOperand, []⟩] := by decide
/-- F1, A17. -/
theorem test_rdstat_reset :
    (after (exec (.rdstat 0 0 []) afterReset)).responses = [⟨.ok, [0x04, 0xE0, 0xA7, 0x00]⟩] := by decide
theorem test_rdstat_no_address :
    (after (exec (.rdstat 0 0 []) noAddr)).responses = [⟨.ok, [0x04, 0xA0, 0x80, 0x00]⟩] := by decide
/-- A20, E14. -/
theorem test_xwb_bytes : planBytes (after (exec (.xwb 0 0x08 []) afterReset)) = [0x08] := by decide
theorem test_xwb_no_address :
    (after (exec (.xwb 0 0x08 []) noAddr)).responses = [⟨.addressResolutionError, []⟩] := by decide
/-- E4. -/
theorem test_xwr_bytes : planBytes (after (exec (.xwr 0 0x01 [0x55]) ready)) = [0x01, 0x55] := by decide
/-- E5, E6. -/
theorem test_xwblk_bytes :
    planBytes (after (exec (.xwblk 0 0 [2, 0xAA, 0xBB]) ready)) = [0x00, 0x02, 0xAA, 0xBB] := by decide
theorem test_xwblk_no_count :
    planBytes (after (exec (.xwblk 0 0 [2, 0xAA, 0xBB])
      { ready with cfg := { testCfg with blockWriteCountOnWire := false } })) = [0x00, 0xAA, 0xBB] := by decide
/-- E8, E9, E10, E11: the answer step, then (one step) the response. -/
theorem test_xrb_data : (after (step (onBus (.xrb 0 0 []) 0 [.ok [0xF8]] ready))).rdata = [0xF8] := by decide
theorem test_xrr_data : (after (step (onBus (.xrr 0 0 []) 0 [.ok [0x12]] ready))).rdata = [0x12] := by decide
theorem test_xrblk_data :
    (after (step (onBus (.xrblk 0 0x10 []) 0 [.ok [2, 1, 2]] ready))).rdata = [2, 1, 2] := by decide
theorem test_xrblk_count_too_big :
    (after (step (onBus (.xrblk 0 0x10 []) 0 [.ok [33]] ready))).aborting = true := by decide
/-- A2: IllegalOp comes before the address. -/
theorem test_reserved : (after (exec (.reserved 0xF 0 0xFF) noAddr)).responses = [⟨.illegalOp, []⟩] := by decide

/-! ### The rest of the machine, one step each -/

theorem test_status_ready : statusBytes ready = [0x4E, 0x40, 0xA7, 0x00] := by decide
/-- B7: function set with DL = 1, at its last item. -/
theorem test_snoop_function_set :
    (statusBytes { after (step (onBus (.wcmd 0 0x30 []) 3 [.ok []] ready)) with busy := false }) =
      [0x2E, 0xC0, 0xA7, 0x00] := by decide
/-- B16: item 2 fails; TransportError follows after the gap. -/
theorem test_item_fails :
    (statusBytes { after (step (onBus (.wdata 0 0x41 []) 1 [.fail] ready)) with busy := false }) =
      [0x4E, 0xE0, 0xA7, 0x00] := by decide
/-- C27: a failed backlight write sets neither flag. -/
theorem test_bkl_fails :
    (statusBytes { after (step (onBus (.bkl 0 0 []) 0 [.fail] { ready with bl := false })) with busy := false }) =
      [0x4A, 0x40, 0xA7, 0x00] := by decide
/-- D35: PSTATE is INITIALIZING to the response of INIT, where its item 1 failed. -/
theorem test_init_fails :
    (after (step (onBus (.init 0 0 []) 0 [.fail] { afterReset with pstate := .initializing }))).pstate =
      .initializing := by decide
/-- C2: the response of that INIT. -/
theorem test_init_aborts :
    statusBytes (after (step { running (.init 0 0 []) 0 { afterReset with pstate := .initializing } with
      aborting := true })) = [0x07, 0xE2, 0xA7, 0x00] := by decide
theorem test_no_issue_while_waiting : (after (step { running (.wdata 0 0x41 []) 1 ready with tmr := 600 })).flight = none := by
  decide
/-- L1-6. -/
theorem test_probe_order :
    (State.resetWith { testCfg with defaultAddr := some 0x20 } (some [0x3F, 0x27])).addr = 0x3F := by decide
/-- F5. -/
theorem test_illegal_config :
    configLegal { testCfg with numCols := 17 } = false ∧ configLegal { testCfg with pBl := 2 } = false := by decide
/-- L1-3: 'A' lands at DDRAM 0x00 after the set-DDRAM command of line 1 (20_memory.md R82). -/
theorem test_display_char :
    memRead (latchAll testCfg (.wline 1 1 [0x41]) (requestPlan testCfg true (.wline 1 1 [0x41])) initDisplay).ddram 0 =
      some 0x41 := by decide
/-- 90_conflicts.md C3: line 2's command is 0xC0, its first DDRAM address 0x40. -/
theorem test_display_line2 :
    (latchAll testCfg (.setline 2 0 []) (requestPlan testCfg true (.setline 2 0 [])) initDisplay).ac = some 0x40 := by
  decide
/-- R73, R75: after XWB 0x0C (enable up, no strobe) a BKL write strobes, and the display takes a high nibble. -/
theorem test_display_bkl_strobes :
    (latchAll testCfg (.bkl 1 0 []) (requestPlan testCfg true (.bkl 1 0 []))
      (latchAll testCfg (.xwb 0 0x0C []) (requestPlan testCfg true (.xwb 0 0x0C [])) initDisplay)).phase = some .lo := by
  decide
/-- U1, R84: a CGRAM entry written by WCMD 0x40 and a data byte stays unknown until a load completes. -/
theorem test_display_glyph_unknown :
    let d := latchAll testCfg (.wdata 0 0x1F []) (requestPlan testCfg true (.wdata 0 0x1F []))
      (latchAll testCfg (.wcmd 0 0x40 []) (requestPlan testCfg true (.wcmd 0 0x40 [])) initDisplay);
    glyphEntry d 0 = none ∧ glyphEntry (displayLoadDone d) 0 = some 0x1F := by decide
/-- A18, from State.reset itself: the first step after reset runs the offered request. -/
theorem test_withFetchWord :
    ((after (step (State.reset.withFetchWord 16 0x0801))).responses.map (fun r => r.code)) = [.notReady] := by decide
theorem test_reset_idles : (after (step State.reset)).responses = [] := by decide

/-! ### Witnesses: the hypotheses of each obligation are met together -/

/-- `exec` and `step` answer the next state `after` gives, where they answer one. -/
theorem exec_after (i : Instr) (s : State) : exec i s = .next (after (exec i s)) := by
  obtain ⟨t, h⟩ := exec_next i s
  rw [h]; rfl

theorem ready_atRest (oks : List BusAnswer) : AtRest { ready with answers := oks } :=
  ⟨show configLegal testCfg = true by decide, rfl, rfl, rfl, rfl⟩

theorem initDisplay_wf : Memory.wf 128 initDisplay.ddram = true ∧ Memory.wf 64 initDisplay.cgram = true :=
  ⟨memFill_wf 128 _, rfl⟩

theorem ready_invariant : Invariant ready := by
  refine ⟨by decide, rfl, initDisplay_wf.1, initDisplay_wf.2, ?_, ?_, ?_, ?_, ?_, ?_⟩ <;> simp [ready, afterReset, State.resetWith]

/-- A running request, legal and taken from READY, has the invariant, at any of its items. -/
theorem running_invariant {i : Instr} {n : BitVec 11} (hl : legalOperands testCfg i = true) (hi : isInit i = false)
    (hn : n.toNat ≤ (requestPlan testCfg true i).length) : Invariant (running i n ready) := by
  refine ⟨by simp [running, ready, afterReset, State.resetWith, resolvedOk, resolvedAddr, testCfg, defaultConfig], rfl,
    initDisplay_wf.1, initDisplay_wf.2, requestPlan_length_le _ _ _ hl, hn, ?_, ?_, ?_, ?_⟩
  · intro h; cases h
  · intro _
    exact ⟨_, rfl, by rw [decodeRequest_encodeRequest]; rfl, rfl, fun _ => rfl⟩
  · simp [running, ready, afterReset, State.resetWith, hi, decodeRequest_encodeRequest]
  · intro it h; cases h

/-- INIT running, at its item `n`. -/
def initRunning (n : BitVec 11) : State := running (.init 0 0 []) n { afterReset with pstate := .initializing }

theorem initRunning_invariant (n : BitVec 11) (hn : n.toNat ≤ 24) : Invariant (initRunning n) := by
  refine ⟨(fun h => by cases h), rfl, rfl, rfl, requestPlan_length_le testCfg true (.init 0 0 []) rfl, hn, ?_, ?_, ?_, ?_⟩
  · intro h; cases h
  · intro _
    exact ⟨_, rfl, rfl, rfl, fun h => by cases h⟩
  · simp [initRunning, running, afterReset, State.resetWith, decodeRequest_encodeRequest, isInit]
  · intro it h; cases h

theorem invariant_onBus {i : Instr} {n : BitVec 11} {s : State} (answers : List BusAnswer) (h : Invariant (running i n s))
    (ha : s.aborting = false) (ht : s.tmr = 0) : Invariant (onBus i n answers s) :=
  ⟨h.addr_zero, h.bus_sel, h.ddram_wf, h.cgram_wf, h.plan_length, h.seq_le, (fun hb => by cases hb), h.running,
    h.initializing, fun _ hit => ⟨ha, ht, hit⟩⟩

theorem invariant_aborting {s : State} (h : Invariant s) (hb : s.busy = true) (hf : s.flight = none) :
    Invariant { s with aborting := true } :=
  ⟨h.addr_zero, h.bus_sel, h.ddram_wf, h.cgram_wf, h.plan_length, h.seq_le, (fun hi => by rw [hb] at hi; cases hi),
    h.running, h.initializing, (fun it hit => by rw [hf] at hit; cases hit)⟩

theorem answersOk_replicate (s : State) (n : Nat) (rest : List BusAnswer)
    (h : s.answers = List.replicate n (.ok []) ++ rest) : AnswersOk s n rest :=
  ⟨_, h, by simp, fun a ha => ⟨[], by simpa using (List.mem_replicate.1 ha).2⟩⟩

theorem witness_DecodeOfEncodedBytes :
    (Instr.xwblk 7 0 [2, 0xAA, 0xBB]).framed = true ∧ (Instr.wline 7 255 (List.replicate 255 0)).framed = true ∧
      (Instr.wline 0 0 []).framed = true ∧ (Instr.ldglyph 0 0 (List.replicate 64 0xFF)).wellFormed = true := by
  refine ⟨by decide, ?_, by decide, by decide⟩
  simp only [Instr.framed, List.length_replicate]
  decide

theorem witness_EncodeOfDecodedBytes : decodeBytes [0x58, 0x01, 0x55, 0x48] = .ok (.xwr 0 1 [0x55], [0x48]) := by rfl

theorem witness_StepRunsDecodedRequest_port :
    let s := { ready with port := [⟨0x0801, []⟩] };
    configLegal s.cfg = true ∧ s.rst = false ∧ s.busy = false ∧ s.port = ⟨0x0801, []⟩ :: [] := by decide

theorem witness_StepRunsDecodedRequest_bytes :
    let s := { ready with rx := [0x10, 0x41, 0x48] };
    configLegal s.cfg = true ∧ s.rst = false ∧ s.busy = false ∧ s.port = [] ∧
      decodeBytes s.rx = .ok (.wdata 0 0x41 [], [0x48]) := ⟨by decide, rfl, rfl, rfl, rfl⟩

theorem witness_PortIsHeld_busy :
    let s := running (.wdata 0 0x41 []) 0 ready;
    s.rst = false ∧ s.busy = true ∧ step s = .next (after (step s)) := ⟨rfl, rfl, rfl⟩

theorem witness_PortIsHeld_idle :
    let s := { ready with rx := [0x29, 0x02, 0x41] };
    configLegal s.cfg = true ∧ s.rst = false ∧ s.busy = false ∧ s.port = [] ∧
      ∀ i rest, decodeBytes s.rx ≠ .ok (i, rest) := by
  refine ⟨by decide, rfl, rfl, rfl, ?_⟩
  intro i rest h
  have : decodeBytes ([0x29, 0x02, 0x41] : List Byte) = .error (.payloadIncomplete 1) := rfl
  cases this.symm.trans h

theorem witness_InvKeptByStep_idle : Invariant ready ∧ step ready = .next (after (step ready)) := ⟨ready_invariant, rfl⟩

theorem witness_InvKeptByStep_init :
    Invariant (initRunning 24) ∧ step (initRunning 24) = .next (after (step (initRunning 24))) :=
  ⟨initRunning_invariant 24 (by decide), rfl⟩

theorem witness_InvStepsAnswer : Invariant ready ∧ configLegal ready.cfg = true := ⟨ready_invariant, by decide⟩

/-- A configuration for each way R234 names, and two at its bounds that it accepts. -/
theorem witness_IllegalConfigRefused :
    configLegal { testCfg with pEn := 4 } = false ∧ configLegal { testCfg with pRs := 1 } = false ∧
      configLegal { testCfg with numLines := 3 } = false ∧ configLegal { testCfg with numCols := 17 } = false ∧
      configLegal { testCfg with blockMax := 255 } = false ∧ configLegal { testCfg with readBlockLen := 33 } = false ∧
      configLegal { testCfg with blockMax := 254, readBlockLen := 254 } = true ∧
      configLegal { testCfg with numCols := 17, lineBase := some ⟨0x80, 0xC0, 0x90, 0xD0⟩ } = true := by decide

theorem witness_ResetValues : afterReset = State.resetWith testCfg none := rfl

/-- L1-6, a row for each clause. -/
theorem witness_AddressResolution :
    { testCfg with explicitAddr := some 0x3F }.explicitAddr = some 0x3F ∧ testCfg.explicitAddr = none ∧
      testCfg.defaultAddr = some 0x27 ∧ { testCfg with defaultAddr := none }.defaultAddr = none ∧
      (let s := { State.resetWith { testCfg with explicitAddr := some 0x3F } none with rst := true };
        s.rst = true ∧ s.cfg.explicitAddr ≠ none ∧ step s = .next (after (step s))) ∧
      ready.rst = false ∧ step ready = .next (after (step ready)) :=
  ⟨rfl, rfl, rfl, rfl, ⟨rfl, by decide, rfl⟩, rfl, rfl⟩

theorem witness_BusSelection :
    { testCfg with hwRev := 1 }.hwRev = 1 ∧ testCfg.hwRev ≠ 1 ∧ step ready = .next (after (step ready)) ∧
      ready.rst = false := ⟨rfl, by decide, rfl, rfl⟩

/-- A reset of an idle block, and one that cuts a transaction of INIT off. -/
theorem witness_ResetAbandonsRequest :
    (configLegal { ready with rst := true }.cfg = true ∧ { ready with rst := true }.busy = false ∧
        { ready with rst := true, probes := [none] }.probes ≠ []) ∧
      let s := { onBus (.init 0 0 []) 10 [] { afterReset with pstate := .initializing } with rst := true };
      configLegal s.cfg = true ∧ s.rst = true ∧ s.busy = true ∧ s.req = some ⟨0x0000, []⟩ ∧
        s.flight = some ⟨[0x8C], 600, .enh, none⟩ := by decide

/-- A2, A4, A15, A18, and a request that runs. -/
theorem witness_CheckOrder :
    noAddr.busy = false ∧ isReserved (.reserved 0xF 0 0xFF) = true ∧
      (isReserved (.setline 0 0 []) = false ∧ legalOperands ready.cfg (.setline 0 0 []) = false) ∧
      (legalOperands noAddr.cfg (.wcmd 0 1 []) = true ∧ needsAddress (.wcmd 0 1 []) = true ∧ noAddr.addrOk = false) ∧
      (legalOperands afterReset.cfg (.wcmd 0 1 []) = true ∧ afterReset.addrOk = true ∧ needsReady (.wcmd 0 1 []) = true ∧
        afterReset.pstate ≠ .ready) ∧
      legalOperands ready.cfg (.wcmd 0 1 []) = true ∧ ready.addrOk = true ∧ ready.pstate = .ready := by decide

theorem witness_ReservedIsIllegalOp :
    ready.busy = false ∧ ready.aborting = false ∧ (0x80 : Byte).getLsbD 7 = true := by decide

/-- A3, A5, A8, A11. -/
theorem witness_IllegalOperandIsBadOperand :
    ready.busy = false ∧ ready.aborting = false ∧
      (isReserved (.init 0 1 []) = false ∧ legalOperands ready.cfg (.init 0 1 []) = false) ∧
      legalOperands ready.cfg (.setline 5 0 []) = false ∧ legalOperands ready.cfg (.nibble 0 0x10 []) = false ∧
      legalOperands ready.cfg (.wline 1 2 [0x41]) = false := by decide

theorem witness_NoAddressError :
    noAddr.busy = false ∧ noAddr.aborting = false ∧ isReserved (.init 0 0 []) = false ∧
      legalOperands noAddr.cfg (.init 0 0 []) = true ∧ noAddr.addrOk = false ∧
      (∀ a b p, Instr.init 0 0 [] ≠ .rdstat a b p) ∧
      let s := { noAddr with rst := true, probes := [some [0x20]] };
      step s = .next (after (step s)) ∧ (after (step s)).addrOk ≠ s.addrOk :=
  ⟨rfl, rfl, rfl, rfl, rfl, nofun, rfl, by decide⟩

theorem witness_ProtocolRequestNotReady :
    (afterReset.busy = false ∧ afterReset.aborting = false ∧ needsReady (.bkl 1 0 []) = true ∧
        legalOperands afterReset.cfg (.bkl 1 0 []) = true ∧ afterReset.addrOk = true ∧ afterReset.pstate ≠ .ready) ∧
      needsReady (.xwb 0 8 []) = false ∧ exec (.xwb 0 8 []) afterReset = .next (after (exec (.xwb 0 8 []) afterReset)) :=
  ⟨by decide, rfl, exec_after _ _⟩

theorem witness_AcceptanceFrame :
    (after (exec (.bkl 2 0 []) ready)).bl ≠ ready.bl ∧ (after (exec (.nibble 0 0 []) ready)).desync ≠ ready.desync ∧
      (after (exec (.init 0 0 []) ready)).pstate ≠ ready.pstate := by decide

/-- INIT and the transport requests are taken in every PSTATE with an address. -/
theorem witness_InitTaken : afterReset.addrOk = true ∧ ready.addrOk = true := by decide

theorem witness_ByteWritesTaken : ready.addrOk = true ∧ ready.pstate = .ready := by decide

theorem witness_NibbleTaken : ready.addrOk = true ∧ ready.pstate = .ready := by decide

/-- Lines 1 and 4, the bounds of NUM_LINES = 4. -/
theorem witness_SetlineTaken :
    configLegal ready.cfg = true ∧ 1 ≤ (1 : BitVec 3).toNat ∧ (4 : BitVec 3).toNat ≤ ready.cfg.numLines ∧
      ready.addrOk = true ∧ ready.pstate = .ready := by decide

/-- Line 0 with no text, and line 4 with text. -/
theorem witness_WlineTaken :
    configLegal ready.cfg = true ∧ (0 : BitVec 3).toNat ≤ ready.cfg.numLines ∧ ([] : List Byte).length = (0 : Byte).toNat ∧
      (4 : BitVec 3).toNat ≤ ready.cfg.numLines ∧ ([0x41] : List Byte).length = (1 : Byte).toNat ∧
      ready.addrOk = true ∧ ready.pstate = .ready ∧ ready.aborting = false := by decide

theorem witness_WextTaken :
    configLegal ready.cfg = true ∧ (0 : BitVec 3).toNat ≤ ready.cfg.numLines ∧ ([] : List Byte).length = (0 : Byte).toNat ∧
      (4 : BitVec 3).toNat ≤ ready.cfg.numLines ∧
      ([0x7B, 0x30, 0x78, 0x30, 0x30, 0x7D] : List Byte).length = (6 : Byte).toNat ∧ ready.addrOk = true ∧
      ready.pstate = .ready ∧ ready.aborting = false := by decide

/-- Off, on and toggle. -/
theorem witness_BklTaken :
    ready.addrOk = true ∧ ready.pstate = .ready ∧
      ((0 : BitVec 3) = 0 ∧ false = false) ∧ ((1 : BitVec 3) = 1 ∧ true = true) ∧ (2 : BitVec 3) = 2 ∧
      false = !ready.bl := by decide

theorem witness_LdglyphTaken :
    (List.replicate 64 (0 : Byte)).length = 64 ∧ ready.addrOk = true ∧ ready.pstate = .ready := by decide

theorem witness_RdstatAnswers : noAddr.busy = false ∧ noAddr.aborting = false := by decide

/-- The shortest block and the longest that BLOCK_MAX = 32 allows. -/
theorem witness_RawWritesTaken :
    afterReset.addrOk = true ∧ ([] : List Byte).length = (0 : Byte).toNat ∧ (0 : Byte).toNat ≤ afterReset.cfg.blockMax ∧
      (List.replicate 32 (0 : Byte)).length = (32 : Byte).toNat ∧ (32 : Byte).toNat ≤ afterReset.cfg.blockMax := by decide

theorem witness_RawReadsTaken : afterReset.addrOk = true := by decide

theorem witness_ByteWriteItems :
    (0x0D : Byte) = (if true then 1#8 <<< testCfg.pRs else 0) ||| (1#8 <<< testCfg.pEn) |||
        (if true then 1#8 <<< testCfg.pBl else 0) ∧
      (0x09 : Byte) = (if true then 1#8 <<< testCfg.pRs else 0) ||| (if true then 1#8 <<< testCfg.pBl else 0) := by decide

theorem witness_BacklightOnEveryByte :
    configLegal testCfg = true ∧ needsReady (.bkl 2 0 []) = true ∧ isInit (.init 0 0 []) = true ∧
      (requestPlan testCfg false (.bkl 2 0 [])).length = 1 ∧ (requestPlan testCfg true (.init 0 0 [])).length = 24 := by
  decide

theorem witness_BacklightOwner :
    let s := { ready with port := [⟨0x3A00, []⟩] };
    step s = .next (after (step s)) ∧ (after (step s)).bl ≠ s.bl := ⟨rfl, by decide⟩

theorem witness_PlanLengths :
    configLegal testCfg = true ∧ legalOperands testCfg (.wline 0 0 []) = true ∧
      legalOperands testCfg (.wext 4 0 []) = true ∧ (List.replicate 255 (0 : Byte)).length = 255 := by
  exact ⟨by decide, by decide, by decide, List.length_replicate⟩

theorem witness_InitPlanItems :
    testCfg.pRs = 0 ∧ testCfg.pRw = 1 ∧ testCfg.pEn = 2 ∧ testCfg.pBl = 3 ∧
      (initPlan testCfg true)[23]? = some ⟨[0x68], 200200, .enl, some (0x06, false)⟩ := by decide

theorem witness_AddressCommands :
    testCfg.lineBase = none ∧ testCfg.numCols = 20 ∧ { testCfg with numCols := 16 }.numCols = 16 ∧
      { testCfg with lineBase := some ⟨0x80, 0xC0, 0x8A, 0xCA⟩ }.lineBase = some ⟨0x80, 0xC0, 0x8A, 0xCA⟩ := by decide

/-- L1-4 and C17: an escape in either case of x, and a payload that is none. -/
theorem witness_ParseEquations :
    ((0x78 : Byte) = 0x78 ∧ hexval 0x34 = some 4 ∧ hexval 0x61 = some 10) ∧
      ((true = true ∧ (0x58 : Byte) = 0x58) ∧ hexval 0x46 = some 15) ∧
      ¬∃ (x d e : Byte) (tail : List Byte), (x = 0x78 ∨ (false = true ∧ x = 0x58)) ∧ hexval d ≠ none ∧
        hexval e ≠ none ∧ ([0x7B, 0x30, 0x78, 0x5A, 0x5A, 0x7D] : List Byte) = 0x7B :: 0x30 :: x :: d :: e :: 0x7D :: tail := by
  refine ⟨by decide, by decide, ?_⟩
  rintro ⟨x, d, e, tail, -, hd, -, heq⟩
  simp only [List.cons.injEq] at heq
  obtain ⟨-, -, -, rfl, -⟩ := heq
  exact hd (by decide)

/-- A text with a line, one without, and an empty one. -/
theorem witness_LeastDurations :
    testCfg.tSettle = 100 ∧ testCfg.tEnHigh = 500 ∧ testCfg.tEnLow = 100 ∧ testCfg.tInit = 200000 ∧
      testCfg.tLongCmd = 0 ∧ testCfg.tSync1 = 0 ∧ configLegal testCfg = true ∧
      legalOperands testCfg (.wline 4 1 [0x41]) = true ∧ legalOperands testCfg (.wext 0 1 [0x41]) = true ∧
      legalOperands testCfg (.wline 0 0 []) = true := by decide

theorem witness_IssueInOrder :
    let s := running (.wdata 0 0x41 []) 1 ready;
    s.flight = none ∧ s.rst = false ∧ step s = .next (after (step s)) ∧
      (after (step s)).flight = some ⟨[0x49], 200, .enl, none⟩ := ⟨rfl, rfl, rfl, by decide⟩

/-- A command byte's last write, which is snooped, a write with no mark, and reads without and with a register byte. -/
theorem witness_TransactionCompletes :
    (let s := onBus (.wcmd 0 0x80 []) 3 [.ok []] ready;
      OnBus s ⟨0x0880, []⟩ ⟨[0x08], 200, .enl, some (0x80, false)⟩ ∧ s.answers = .ok [] :: []) ∧
      (let s := onBus (.xwb 0 8 []) 0 [.ok []] ready;
        OnBus s ⟨0x5008, []⟩ ⟨[0x08], 100, .raww, none⟩ ∧ s.answers = .ok [] :: [] ∧ Kind.raww ≠ .rawr) ∧
      (let s := onBus (.xrb 0 0 []) 0 [.ok [0xF8]] ready;
        OnBus s ⟨0x6800, []⟩ ⟨[], 0, .rawr, none⟩ ∧ s.answers = .ok [0xF8] :: [] ∧
          readResult s.cfg (decodeRequest ⟨0x6800, []⟩) [0xF8] s.draws = some [0xF8]) ∧
      let s := onBus (.xrblk 0 0x10 []) 0 [.ok [2, 1, 2]] ready;
      OnBus s ⟨0x7810, []⟩ ⟨[0x10], 0, .rawr, none⟩ ∧ s.answers = .ok [2, 1, 2] :: [] ∧
        readResult s.cfg (decodeRequest ⟨0x7810, []⟩) [2, 1, 2] s.draws = some [2, 1, 2] :=
  ⟨⟨⟨by decide, rfl, rfl, by decide, by decide⟩, rfl⟩, ⟨⟨by decide, rfl, rfl, by decide, by decide⟩, rfl, by decide⟩,
    ⟨⟨by decide, rfl, rfl, by decide, by decide⟩, rfl, by decide⟩,
    ⟨by decide, rfl, rfl, by decide, by decide⟩, rfl, by decide⟩

/-- A strobe write, a backlight write, writes of INIT and LDGLYPH, a failed read, and a count of BLOCK_MAX + 1. -/
theorem witness_TransactionFails :
    (OnBus (onBus (.wdata 0 0x41 []) 1 [.fail] ready) ⟨0x1041, []⟩ ⟨[0x49], 200, .enl, none⟩ ∧
        (onBus (.wdata 0 0x41 []) 1 [.fail] ready).answers = .fail :: []) ∧
      OnBus (onBus (.bkl 1 0 []) 0 [.fail] ready) ⟨0x3900, []⟩ ⟨[0x08], 100, .blw, none⟩ ∧
      OnBus (onBus (.init 0 0 []) 0 [.fail] ready) ⟨0x0000, []⟩ ⟨[0x3C], 600, .enh, none⟩ ∧
      OnBus (onBus (.ldglyph 0 0 (List.replicate 64 0)) 0 [.fail] ready) ⟨0x4000, List.replicate 64 0⟩
        ⟨[0x4C], 600, .enh, none⟩ ∧
      OnBus (onBus (.xrb 0 0 []) 0 [.fail] ready) ⟨0x6800, []⟩ ⟨[], 0, .rawr, none⟩ ∧
      let s := onBus (.xrblk 0 0x10 []) 0 [.ok [33]] ready;
      OnBus s ⟨0x7810, []⟩ ⟨[0x10], 0, .rawr, none⟩ ∧ s.answers = .ok [33] :: [] ∧
        readResult s.cfg (decodeRequest ⟨0x7810, []⟩) [33] s.draws = none :=
  ⟨⟨⟨by decide, rfl, rfl, by decide, by decide⟩, rfl⟩, ⟨by decide, rfl, rfl, by decide, by decide⟩,
    ⟨by decide, rfl, rfl, by decide, by decide⟩, ⟨by decide, rfl, rfl, by decide, by decide⟩,
    ⟨by decide, rfl, rfl, by decide, by decide⟩, ⟨by decide, rfl, rfl, by decide, by decide⟩, rfl, by decide⟩

theorem witness_HangUntilReset :
    OnBus (onBus (.xwb 0 8 []) 0 [.never] ready) ⟨0x5008, []⟩ ⟨[0x08], 100, .raww, none⟩ ∧
      (onBus (.xwb 0 8 []) 0 [.never] ready).answers = .never :: [] :=
  ⟨⟨by decide, rfl, rfl, by decide, by decide⟩, rfl⟩

/-- Each case at both ends of its range, and the three marks an item can have. -/
theorem witness_SnoopCases :
    ((0x80 : Byte).extractLsb' 7 1 = 0b1#1 ∧ (0xFF : Byte).extractLsb' 7 1 = 0b1#1) ∧
      ((0x40 : Byte).extractLsb' 6 2 = 0b01#2 ∧ (0x7F : Byte).extractLsb' 6 2 = 0b01#2) ∧
      ((0x20 : Byte).extractLsb' 5 3 = 0b001#3 ∧ (0x3F : Byte).extractLsb' 5 3 = 0b001#3) ∧
      ((0x10 : Byte).extractLsb' 4 4 = 0b0001#4 ∧ (0x1F : Byte).extractLsb' 4 4 = 0b0001#4) ∧
      ((0x08 : Byte).extractLsb' 3 5 = 0b00001#5 ∧ (0x0F : Byte).extractLsb' 3 5 = 0b00001#5) ∧
      ((0x04 : Byte).extractLsb' 2 6 = 0b000001#6 ∧ (0x07 : Byte).extractLsb' 2 6 = 0b000001#6) ∧
      ((0x02 : Byte).extractLsb' 1 7 = 0b0000001#7 ∧ (0x03 : Byte).extractLsb' 1 7 = 0b0000001#7) ∧
      (⟨[], 0, .enl, some (0x01, true)⟩ : Item).done = some (0x01, true) ∧
      (⟨[], 0, .enl, some (0x01, false)⟩ : Item).done = some (0x01, false) ∧ (⟨[], 0, .enl, none⟩ : Item).done = none := by
  decide

theorem witness_PlanRunsToEnd :
    let s := { ready with answers := [.ok [], .ok [], .ok [], .ok []] };
    let t := after (exec (.wdata 0 0x41 []) s);
    AtRest s ∧ exec (.wdata 0 0x41 []) s = .next t ∧ t.busy = true ∧ (∀ it ∈ t.plan, it.kind ≠ .rawr) ∧
      AnswersOk s t.plan.length [] :=
  ⟨ready_atRest _, exec_after _ _, by decide, by decide, answersOk_replicate _ 4 [] rfl⟩

/-- A write, and a raw read. -/
theorem witness_FirstFailureEnds :
    (let s := { ready with answers := [.ok [], .fail, .ok []] };
      let t := after (exec (.wdata 0 0x41 []) s);
      AtRest s ∧ exec (.wdata 0 0x41 []) s = .next t ∧ t.busy = true ∧
        t.plan[1]? = some ⟨[0x49], 200, .enl, none⟩ ∧ AnswersOk s 1 (.fail :: [.ok []])) ∧
      let s := { ready with answers := [.fail] };
      let t := after (exec (.xrb 0 0 []) s);
      AtRest s ∧ exec (.xrb 0 0 []) s = .next t ∧ t.busy = true ∧ t.plan[0]? = some ⟨[], 0, .rawr, none⟩ ∧
        AnswersOk s 0 (.fail :: []) :=
  ⟨⟨ready_atRest _, exec_after _ _, by decide, by decide, answersOk_replicate _ 1 _ rfl⟩,
    ready_atRest _, exec_after _ _, by decide, by decide, answersOk_replicate _ 0 _ rfl⟩

theorem witness_InitEndsReady :
    let s := { afterReset with answers := List.replicate 24 (.ok []) ++ [] };
    AtRest s ∧ s.addrOk = true ∧ exec (.init 0 0 []) s = .next (after (exec (.init 0 0 []) s)) ∧ AnswersOk s 24 [] :=
  ⟨⟨by decide, rfl, rfl, rfl, rfl⟩, rfl, exec_after _ _, answersOk_replicate _ 24 [] rfl⟩

/-- The first and the last of the 24 writes. -/
theorem witness_InitFailureFaults :
    (let s := { afterReset with answers := [.fail] };
      AtRest s ∧ s.addrOk = true ∧ exec (.init 0 0 []) s = .next (after (exec (.init 0 0 []) s)) ∧
        AnswersOk s 0 (.fail :: [])) ∧
      AnswersOk { afterReset with answers := List.replicate 23 (.ok []) ++ [.fail] } 23 (.fail :: []) :=
  ⟨⟨⟨by decide, rfl, rfl, rfl, rfl⟩, rfl, exec_after _ _, answersOk_replicate _ 0 _ rfl⟩,
    answersOk_replicate _ 23 _ rfl⟩

/-- All 288 writes complete; the first fails; the last fails. -/
theorem witness_GlyphLoadOutcome :
    let s := { ready with answers := List.replicate 288 (.ok []) ++ [] };
    AtRest s ∧ s.addrOk = true ∧ s.pstate = .ready ∧ (List.replicate 64 (0 : Byte)).length = 64 ∧
      exec (.ldglyph 0 0 (List.replicate 64 0)) s =
        .next (after (exec (.ldglyph 0 0 (List.replicate 64 0)) s)) ∧
      AnswersOk s 288 [] ∧ AnswersOk { ready with answers := [.fail] } 0 (.fail :: []) ∧
      AnswersOk { ready with answers := List.replicate 287 (.ok []) ++ [.fail] } 287 (.fail :: []) :=
  ⟨ready_atRest _, rfl, rfl, by simp, exec_after _ _, answersOk_replicate _ 288 [] rfl, answersOk_replicate _ 0 _ rfl,
    answersOk_replicate _ 287 _ rfl⟩

/-- One byte; a count of 2, of BLOCK_MAX = 32 and of 33; a fixed length of 3. -/
theorem witness_RawReadsRespond :
    (let s := { ready with answers := [.ok [0xF8]] };
      AtRest s ∧ s.addrOk = true ∧ s.answers = .ok [0xF8] :: []) ∧
      (let s := { ready with answers := [.ok [2, 1, 2]] };
        s.answers = .ok (2 :: [1, 2]) :: [] ∧ s.cfg.readBlockMode = .counted ∧ [1, 2].length = (2 : Byte).toNat) ∧
      ((32 : Byte).toNat ≤ ready.cfg.blockMax ∧ ¬(33 : Byte).toNat ≤ ready.cfg.blockMax ∧
        (List.replicate 33 (0 : Byte)).length = (33 : Byte).toNat) ∧
      let s := { ready with cfg := { testCfg with readBlockMode := .fixed, readBlockLen := 3 }, answers := [.ok [7, 8, 9]] };
      AtRest s ∧ s.answers = .ok [7, 8, 9] :: [] ∧ s.cfg.readBlockMode = .fixed ∧
        ([7, 8, 9] : List Byte).length = s.cfg.readBlockLen :=
  ⟨⟨ready_atRest _, rfl, rfl⟩, ⟨rfl, rfl, rfl⟩, by decide, ⟨by decide, rfl, rfl, rfl, rfl⟩, rfl, rfl, rfl⟩

/-- A transport request that is taken, and one whose transaction ends. -/
theorem witness_TransportLeavesProtocolState :
    (let s := { ready with port := [⟨0x5008, []⟩] };
      s.rst = false ∧ currentInstr s = some (.xwb 0 8 []) ∧ isTransport (.xwb 0 8 []) = true ∧
        step s = .next (after (step s))) ∧
      let s := onBus (.xwb 0 8 []) 0 [.fail] ready;
      Invariant s ∧ s.rst = false ∧ currentInstr s = some (.xwb 0 8 []) ∧ step s = .next (after (step s)) :=
  ⟨⟨rfl, rfl, rfl, rfl⟩,
    invariant_onBus [.fail] (running_invariant (i := .xwb 0 8 []) (n := 0) rfl rfl (by decide)) rfl rfl, rfl, by decide, rfl⟩

/-- INIT taken, ended, and failed; and a reset from READY. -/
theorem witness_ProtocolStateMoves :
    (Invariant (initRunning 24) ∧ (after (step (initRunning 24))).pstate = .ready ∧
        step (initRunning 24) = .next (after (step (initRunning 24)))) ∧
      (let s := { initRunning 0 with aborting := true };
        Invariant s ∧ step s = .next (after (step s)) ∧ (after (step s)).pstate = .faulted) ∧
      (let s := { ready with port := [⟨0x0000, []⟩] };
        step s = .next (after (step s)) ∧ (after (step s)).pstate = .initializing) ∧
      let s := { ready with rst := true };
      step s = .next (after (step s)) ∧ (after (step s)).pstate = .uninit :=
  ⟨⟨initRunning_invariant 24 (by decide), by decide, rfl⟩,
    ⟨invariant_aborting (initRunning_invariant 0 (by decide)) rfl rfl, rfl, by decide⟩, ⟨rfl, by decide⟩, rfl,
    by decide⟩

theorem witness_DesyncClearedByInitOnly :
    Invariant (initRunning 24) ∧ step (initRunning 24) = .next (after (step (initRunning 24))) ∧
      (initRunning 24).desync = true ∧ (after (step (initRunning 24))).desync = false :=
  ⟨initRunning_invariant 24 (by decide), rfl, rfl, by decide⟩

/-- A load that ends, and one that fails after an earlier load. -/
theorem witness_GlyphFlagOwner :
    (let s := running (.ldglyph 0 0 (List.replicate 64 0)) 288 ready;
      Invariant s ∧ step s = .next (after (step s)) ∧ (after (step s)).cgValid ≠ s.cgValid) ∧
      let s := { onBus (.ldglyph 0 0 (List.replicate 64 0)) 0 [.fail] ready with cgValid := true };
      step s = .next (after (step s)) ∧ (after (step s)).cgValid ≠ s.cgValid := by
  have hl : legalOperands testCfg (.ldglyph 0 0 (List.replicate 64 0)) = true := by decide
  refine ⟨⟨running_invariant hl rfl ?_, ?_, ?_⟩, ?_, ?_⟩
  · simp [requestPlan, glyphPlan, List.range_succ]
  · rfl
  · decide
  · rfl
  · decide

theorem witness_LastErrIsResponseCode : ready.rst = false ∧ step ready = .next (after (step ready)) := ⟨rfl, rfl⟩

/-- Every command class of R77 to R81, at both ends of its range. -/
theorem witness_DisplayCommands :
    (0x02 : Byte) &&& 0xFE = 0x02 ∧ (0x03 : Byte) &&& 0xFE = 0x02 ∧ (0x04 : Byte) &&& 0xFC = 0x04 ∧
      (0x07 : Byte) &&& 0xFC = 0x04 ∧ (0x08 : Byte) &&& 0xF8 = 0x08 ∧ (0x0F : Byte) &&& 0xF8 = 0x08 ∧
      (0x10 : Byte) &&& 0xF0 = 0x10 ∧ (0x1F : Byte) &&& 0xF0 = 0x10 ∧ (0x20 : Byte) &&& 0xE0 = 0x20 ∧
      (0x3F : Byte) &&& 0xE0 = 0x20 ∧ (0x40 : Byte) &&& 0xC0 = 0x40 ∧ (0x7F : Byte) &&& 0xC0 = 0x40 ∧
      (0x80 : Byte) &&& 0x80 = 0x80 ∧ (0xFF : Byte) &&& 0x80 = 0x80 := by decide

/-- The last address of line 1, incrementing (AC leaves the range), the last of CGRAM, and an unknown AC, TGT, ID or N. -/
theorem witness_DisplayDataStored :
    (let d := { initDisplay with ac := some 0x27 };
      d.ac = some 0x27 ∧ d.twoLine = some true ∧ d.incr = some true ∧ d.tgt = some .dd) ∧
      (let d := { initDisplay with ac := some 0x3F, tgt := some .cg };
        d.ac = some 0x3F ∧ d.twoLine = some true ∧ d.incr = some true ∧ d.tgt = some .cg) ∧
      ({ initDisplay with incr := none }.tgt = some .dd ∧ { initDisplay with twoLine := none }.ac = some 0) ∧
      { initDisplay with tgt := some .cg, incr := none }.ac = some 0 ∧ { initDisplay with ac := none }.tgt = some .dd ∧
      { initDisplay with ac := none, tgt := some .cg }.tgt = some .cg ∧ { initDisplay with tgt := none }.tgt = none :=
  ⟨⟨rfl, rfl, rfl, rfl⟩, ⟨rfl, rfl, rfl, rfl⟩, ⟨rfl, rfl⟩, rfl, rfl, rfl, rfl⟩

/-- R82's ranges at their ends: line 1's last address and line 2's first, and the one-line range's last. -/
theorem test_display_ranges :
    advanceDd (some true) (some true) 0x26 = some 0x27 ∧ advanceDd (some true) (some true) 0x27 = none ∧
      advanceDd (some true) (some false) 0x40 = none ∧ advanceDd (some true) (some true) 0x66 = some 0x67 ∧
      advanceDd (some false) (some true) 0x4E = some 0x4F ∧ advanceDd (some false) (some true) 0x4F = none := by decide

theorem initDisplay_inStep : InStep testCfg initDisplay := ⟨rfl, rfl, 0x68, rfl, by decide⟩

theorem witness_ByteReachesDisplay :
    configLegal testCfg = true ∧ InStep testCfg initDisplay ∧ followsStrobe (.wdata 0 0x41 []) = true :=
  ⟨by decide, initDisplay_inStep, rfl⟩

theorem witness_GlyphsReachCgram :
    configLegal testCfg = true ∧ InStep testCfg initDisplay ∧ initDisplay.incr = some true ∧
      (List.replicate 64 (0 : Byte)).length = 64 := ⟨by decide, initDisplay_inStep, rfl, by simp⟩

/-- A failed write; a load that completes and makes CGRAM known; an INIT that completes and makes the mode known. -/
theorem witness_FailedWriteUnknown :
    (OnBus (onBus (.wdata 0 0x41 []) 1 [.fail] ready) ⟨0x1041, []⟩ ⟨[0x49], 200, .enl, none⟩ ∧
        (onBus (.wdata 0 0x41 []) 1 [.fail] ready).answers = .fail :: [] ∧ Kind.enl ≠ .rawr) ∧
      (let s := running (.ldglyph 0 0 (List.replicate 64 0)) 288 ready;
        step s = .next (after (step s)) ∧ s.display.cgKnown = false ∧ (after (step s)).display.cgKnown = true) ∧
      step (initRunning 24) = .next (after (step (initRunning 24))) ∧ (initRunning 24).display.mode = .unknown ∧
      (after (step (initRunning 24))).display.mode = .four :=
  ⟨⟨⟨by decide, rfl, rfl, by decide, by decide⟩, rfl, by decide⟩, ⟨rfl, rfl, by decide⟩, rfl, rfl, by decide⟩

end Sys2Proof.Tests
end

section
/-! PROOFS. What a step can do, said once (`StepTo`), with the acceptance of a request as one function of the instruction. -/

namespace Sys2Proof.Machine

/-- BL after the PreEffects of a request: only BKL stores it (41_sequencer.md R150). -/
def newBacklight : Instr → Bool → Bool
  | .bkl a _ _, bl => backlightMode a bl
  | _, bl => bl

/-- The request is NIBBLE, which sets DESYNC as it starts (40_protocol_primitives.md R127). -/
def isNibble : Instr → Bool
  | .nibble _ _ _ => true
  | _ => false

/-- The bytes a request with an empty plan answers at once: RDSTAT's status word (41_sequencer.md R151). -/
def answerAtOnce : Instr → State → List Byte
  | .rdstat _ _ _, s => statusBytes s
  | _, _ => []

/-- The PreEffects of a request (41_sequencer.md R140): INIT's, BKL's and NIBBLE's. -/
def preEffects (i : Instr) (s : State) : State :=
  { s with
    pstate := if isInit i then .initializing else s.pstate
    bl := newBacklight i s.bl
    desync := isNibble i || s.desync }

/-- The state after a request passed its check: REQ, BUSY, the PreEffects and the plan (41_sequencer.md R140). -/
def accepted (i : Instr) (s : State) : State :=
  takenState i (preEffects i) (fun t => requestPlan t.cfg t.bl i) s

/-- Every meaning is `takeRequest` with these PreEffects, this plan and this immediate answer. -/
theorem exec_eq (i : Instr) (s : State) :
    exec i s = takeRequest i (preEffects i) (fun t => requestPlan t.cfg t.bl i) (answerAtOnce i s) s := by
  cases i <;> rfl

section
variable (i : Instr) (s : State)

@[simp] theorem accepted_pstate : (accepted i s).pstate = if isInit i then .initializing else s.pstate := rfl
@[simp] theorem accepted_bl : (accepted i s).bl = newBacklight i s.bl := rfl
@[simp] theorem accepted_desync : (accepted i s).desync = (isNibble i || s.desync) := rfl
@[simp] theorem accepted_cgValid : (accepted i s).cgValid = s.cgValid := rfl
@[simp] theorem accepted_lastErr : (accepted i s).lastErr = s.lastErr := rfl
@[simp] theorem accepted_responses : (accepted i s).responses = s.responses := rfl
@[simp] theorem accepted_busy : (accepted i s).busy = true := rfl
@[simp] theorem accepted_plan : (accepted i s).plan = requestPlan s.cfg (newBacklight i s.bl) i := rfl

end

/-- A request whose plan is empty writes neither PSTATE nor BL nor DESYNC. -/
theorem preEffects_of_plan_nil {c : Config} {bl : Bool} {i : Instr} (h : requestPlan c bl i = []) :
    isInit i = false ∧ isNibble i = false ∧ ∀ b, newBacklight i b = b := by
  cases i with
  | init a b p => simp [requestPlan, initPlan, nibItems] at h
  | nibble a b p => simp [requestPlan, nibItems] at h
  | bkl a b p => simp [requestPlan, backlightPlan] at h
  | _ => exact ⟨rfl, rfl, fun _ => rfl⟩

/-- A request with a plan to run is sent to an address (60_exceptions.md R204). -/
theorem needsAddress_of_plan_ne_nil {c : Config} {bl : Bool} {i : Instr} (h : requestPlan c bl i ≠ []) :
    needsAddress i = true := by
  cases i with
  | rdstat a b p => exact absurd rfl h
  | reserved op a b => exact absurd rfl h
  | _ => rfl

theorem isInit_of_needsReady {i : Instr} (h : needsReady i = true) : isInit i = false := by
  cases i with
  | init a b p => exact absurd h Bool.false_ne_true
  | _ => rfl

/-- Everything taking a request can do: run its plan, answer at once, or end with an error. -/
theorem exec_cases (i : Instr) (s : State) :
    (acceptCheck i s = .ok ∧ (accepted i s).plan ≠ [] ∧ exec i s = .next (accepted i s)) ∨
      (acceptCheck i s = .ok ∧ (accepted i s).plan = [] ∧
        exec i s = .next (endRequest .ok (answerAtOnce i s) (accepted i s))) ∨
      (acceptCheck i s ≠ .ok ∧ exec i s = .next (raiseError (acceptCheck i s) s)) := by
  rw [exec_eq]
  exact takeRequest_cases _ _ _ _ s

/-- The block runs the request `r`, and no reset is asserted. -/
def Executes (s : State) (r : Request) : Prop := s.rst = false ∧ s.busy = true ∧ s.req = some r

/-- The block takes the request `i` off its ports, which leaves `u`, and no reset is asserted. -/
def Takes (s : State) (i : Instr) (u : State) : Prop :=
  s.rst = false ∧ s.busy = false ∧ fetchRequest s = some (i, u)

theorem Takes.currentInstr {s u : State} {i : Instr} (h : Takes s i u) : currentInstr s = some i := by
  obtain ⟨-, hb, hf⟩ := h
  simp [Machine.currentInstr, hb, hf]

theorem Executes.currentInstr {s : State} {r : Request} (h : Executes s r) :
    currentInstr s = some (decodeRequest r) := by
  obtain ⟨-, hb, hreq⟩ := h
  simp [Machine.currentInstr, hb, hreq]

/-- Everything one step can do, by the state it leads to. -/
inductive StepTo (s : State) : State → Prop
  | reset (hr : s.rst = true) : StepTo s (applyReset s)
  /-- a request is taken and its plan will run -/
  | accept {i port rx} (hu : Takes s i { s with port := port, rx := rx }) (hok : acceptCheck i s = .ok)
    (hplan : (accepted i s).plan ≠ []) : StepTo s (accepted i { s with port := port, rx := rx })
  /-- a request with an empty plan is taken and answered (41_sequencer.md R142) -/
  | answer {i port rx} (hu : Takes s i { s with port := port, rx := rx }) (hok : acceptCheck i s = .ok)
    (hplan : (accepted i s).plan = []) :
    StepTo s (endRequest .ok (answerAtOnce i { s with port := port, rx := rx })
      (accepted i { s with port := port, rx := rx }))
  /-- a request is refused (60_exceptions.md R210) -/
  | refuse {i port rx} (hu : Takes s i { s with port := port, rx := rx }) (herr : acceptCheck i s ≠ .ok) :
    StepTo s (raiseError (acceptCheck i s) { s with port := port, rx := rx })
  /-- an idle block with nothing to take lets time pass (60_exceptions.md R215) -/
  | idle (hr : s.rst = false) (hb : s.busy = false) (hnone : fetchRequest s = none) : StepTo s (idleStep s)
  /-- a gap is waited out -/
  | gap {r} (hx : Executes s r) (hf : s.flight = none) (ht : s.tmr ≠ 0) : StepTo s { s with tmr := 0 }
  /-- the next item goes on the bus -/
  | issue {r it} (hx : Executes s r) (hf : s.flight = none) (ht : s.tmr = 0) (ha : s.aborting = false)
    (hp : s.plan[s.seq.toNat]? = some it) : StepTo s { s with flight := some it }
  /-- the transaction on the bus hangs (43_transport.md R192) -/
  | hang {r it} (hx : Executes s r) (hf : s.flight = some it) (hans : nextAnswer s = .never) : StepTo s s
  | itemDone {r it bs data} (hx : Executes s r) (hf : s.flight = some it) (hans : nextAnswer s = .ok bs)
    (hdata : itemData s (decodeRequest r) it bs = some data) : StepTo s (itemDone (decodeRequest r) it data s)
  | itemFailed {r it} (hx : Executes s r) (hf : s.flight = some it)
    (hans : nextAnswer s = .fail ∨ ∃ bs, nextAnswer s = .ok bs ∧ itemData s (decodeRequest r) it bs = none) :
    StepTo s (itemFailed (decodeRequest r) it s)
  | abort {r} (hx : Executes s r) (hf : s.flight = none) (ht : s.tmr = 0) (ha : s.aborting = true) :
    StepTo s (abortRequest (decodeRequest r) s)
  | finish {r} (hx : Executes s r) (hf : s.flight = none) (ht : s.tmr = 0) (ha : s.aborting = false)
    (hp : s.plan[s.seq.toNat]? = none) : StepTo s (finishRequest (decodeRequest r) s)

theorem stepTo_of_answer {s : State} {r : Request} {it : Item} (hx : Executes s r) (hf : s.flight = some it) :
    StepTo s (answerItem (decodeRequest r) it s) := by
  rcases answerItem_cases (decodeRequest r) it s with
    ⟨hans, h⟩ | ⟨hans, h⟩ | ⟨bs, data, hans, hdata, h⟩ | ⟨bs, hans, hdata, h⟩ <;> rw [h]
  · exact .hang hx hf hans
  · exact .itemFailed hx hf (.inl hans)
  · exact .itemDone hx hf hans hdata
  · exact .itemFailed hx hf (.inr ⟨bs, hans, hdata⟩)

theorem stepTo_of_runStep {s t : State} (hr : s.rst = false) (hb : s.busy = true) (h : runStep s = .next t) :
    StepTo s t := by
  obtain ⟨r, hreq, h⟩ := runStep_cases h
  have hx : Executes s r := ⟨hr, hb, hreq⟩
  rcases h with ⟨it, hf, rfl⟩ | ⟨hf, ht, rfl⟩ | ⟨hf, ht, ha, rfl⟩ | ⟨it, hf, ht, ha, hp, rfl⟩ | ⟨hf, ht, ha, hp, rfl⟩
  · exact stepTo_of_answer hx hf
  · exact .gap hx hf ht
  · exact .abort hx hf ht ha
  · exact .issue hx hf ht ha hp
  · exact .finish hx hf ht ha hp

theorem stepTo_of_exec {s u t : State} {i : Instr} (hu : Takes s i u) (h : exec i u = .next t) : StepTo s t := by
  obtain ⟨port, rx, rfl⟩ : ∃ port rx, u = { s with port := port, rx := rx } := ⟨_, _, fetchRequest_state hu.2.2⟩
  rcases exec_cases i { s with port := port, rx := rx } with
    ⟨hok, hplan, he⟩ | ⟨hok, hplan, he⟩ | ⟨herr, he⟩ <;> cases he.symm.trans h
  · exact .accept hu hok hplan
  · exact .answer hu hok hplan
  · exact .refuse hu herr

/-- A step that answers a next state does one of the things `StepTo` lists. -/
theorem stepTo_of_step {s t : State} (h : step s = .next t) : StepTo s t := by
  obtain ⟨-, ⟨hr, rfl⟩ | ⟨hr, hb, h⟩ | ⟨i, u, hr, hb, hf, h⟩ | ⟨hr, hb, hnone, rfl⟩⟩ := step_cases h
  · exact .reset hr
  · exact stepTo_of_runStep hr hb h
  · exact stepTo_of_exec ⟨hr, hb, hf⟩ h
  · exact .idle hr hb hnone

end Sys2Proof.Machine
end

section
/-! PROOFS. The invariant: what reset and every step keep (10_state.md R27, 41_sequencer.md R145). -/

namespace Sys2Proof.Machine

theorem resolvedOk_eq (c : Config) (p : ProbeAnswer) : resolvedOk c p = (resolveAddr c p).isSome := by
  unfold resolvedOk resolveAddr
  cases c.explicitAddr with
  | some a => rfl
  | none => cases firstProbed p <;> simp

theorem resolvedAddr_of_not_ok {c : Config} {p : ProbeAnswer} (h : resolvedOk c p = false) : resolvedAddr c p = 0 := by
  rw [resolvedOk_eq, Option.isSome_eq_false_iff, Option.isNone_iff_eq_none] at h
  simp [resolvedAddr, h]

/-- `t` has the configuration, the address and the bus of `s`. -/
def SameWiring (s t : State) : Prop :=
  t.cfg = s.cfg ∧ t.addr = s.addr ∧ t.addrOk = s.addrOk ∧ t.busSel = s.busSel

/-- `t` has the wiring of `s`, and its BUSY, REQ, PLAN, PSTATE and BL. -/
def SameRequest (s t : State) : Prop :=
  SameWiring s t ∧ t.busy = s.busy ∧ t.req = s.req ∧ t.plan = s.plan ∧ t.pstate = s.pstate ∧ t.bl = s.bl

namespace Invariant
variable {s t : State} {i : Instr} {r : Request} {it : Item}

theorem display_wf (h : Invariant s) : displayWf s.display := ⟨h.ddram_wf, h.cgram_wf⟩

/-- A block that has just been reset has the invariant, whatever its ports hold. -/
theorem of_reset {c : Config} {p : ProbeAnswer} (ht : t = { State.resetWith c p with
      port := t.port, rx := t.rx, answers := t.answers, probes := t.probes, draws := t.draws, trace := t.trace,
      responses := t.responses, display := t.display }) (hd : displayWf t.display) : Invariant t := by
  rw [ht]
  exact
    { addr_zero := resolvedAddr_of_not_ok
      bus_sel := rfl
      ddram_wf := hd.1
      cgram_wf := hd.2
      plan_length := Nat.zero_le _
      seq_le := Nat.le_refl _
      idle := fun _ => ⟨rfl, rfl⟩
      running := nofun
      initializing := ⟨nofun, nofun⟩
      in_flight := nofun }

/-- A change within one request keeps the invariant if its clauses on the display, on SEQ and on the bus still hold. -/
theorem of_sameRequest (h : Invariant s) (hs : SameRequest s t) (hd : displayWf t.display)
    (hseq : t.seq.toNat ≤ t.plan.length) (hidle : t.busy = false → t.flight = none ∧ t.aborting = false)
    (hflight : ∀ it, t.flight = some it → t.aborting = false ∧ t.tmr = 0 ∧ t.plan[t.seq.toNat]? = some it) :
    Invariant t := by
  obtain ⟨⟨hcfg, haddr, hok, hbus⟩, hbusy, hreq, hplan, hps, hbl⟩ := hs
  exact
    { addr_zero := by rw [hok, haddr]; exact h.addr_zero
      bus_sel := by rw [hbus, hcfg]; exact h.bus_sel
      ddram_wf := hd.1
      cgram_wf := hd.2
      plan_length := by rw [hplan]; exact h.plan_length
      seq_le := hseq
      idle := hidle
      running := by rw [hbusy, hreq, hplan, hcfg, hbl, hok, hps]; exact h.running
      initializing := by rw [hps, hbusy, hreq]; exact h.initializing
      in_flight := hflight }

/-- An idle block with nothing on the bus keeps the invariant, whatever request it ended. -/
theorem of_idle (h : Invariant s) (hw : SameWiring s t) (hd : displayWf t.display)
    (hlen : t.plan.length ≤ 1024) (hseq : t.seq.toNat ≤ t.plan.length) (hbusy : t.busy = false)
    (hflight : t.flight = none) (ha : t.aborting = false) (hps : t.pstate ≠ .initializing) : Invariant t := by
  obtain ⟨hcfg, haddr, hok, hbus⟩ := hw
  exact
    { addr_zero := by rw [hok, haddr]; exact h.addr_zero
      bus_sel := by rw [hbus, hcfg]; exact h.bus_sel
      ddram_wf := hd.1
      cgram_wf := hd.2
      plan_length := hlen
      seq_le := hseq
      idle := fun _ => ⟨hflight, ha⟩
      running := fun hb => absurd (hbusy.symm.trans hb) Bool.false_ne_true
      initializing := ⟨fun hi => absurd hi hps, fun hb => absurd (hbusy.symm.trans hb.1) Bool.false_ne_true⟩
      in_flight := fun it hit => nomatch hflight.symm.trans hit }

/-- INITIALIZING, while a request runs, is INIT running. -/
theorem initializing_iff (h : Invariant s) (hx : Executes s r) :
    s.pstate = .initializing ↔ isInit (decodeRequest r) = true := by
  obtain ⟨-, hb, hreq⟩ := hx
  simp [h.initializing, hb, hreq]

/-- Whatever PSTATE INIT ends with, the end of a request leaves no INITIALIZING. -/
theorem ended_ne_initializing (h : Invariant s) (hx : Executes s r) {p : PState} (hp : p ≠ .initializing) :
    (if isInit (decodeRequest r) = true then p else s.pstate) ≠ .initializing := by
  split_ifs with hi
  · exact hp
  · exact fun he => hi ((h.initializing_iff hx).1 he)

theorem not_initializing (h : Invariant s) (hb : s.busy = false) : s.pstate ≠ .initializing :=
  fun hi => absurd (hb.symm.trans (h.initializing.1 hi).1) Bool.false_ne_true

/-! ### Taking a request -/

theorem after_fetch (h : Invariant s) (port : List Request) (rx : List Byte) :
    Invariant { s with port := port, rx := rx } :=
  h.of_sameRequest ⟨⟨rfl, rfl, rfl, rfl⟩, rfl, rfl, rfl, rfl, rfl⟩ h.display_wf h.seq_le h.idle h.in_flight

theorem after_accept (h : Invariant s) (hb : s.busy = false) (hok : acceptCheck i s = .ok)
    (hplan : (accepted i s).plan ≠ []) : Invariant (accepted i s) := by
  obtain ⟨-, hlegal, haddr, hready⟩ := (acceptCheck_ok_iff i s).1 hok
  obtain ⟨hflight, ha⟩ := h.idle hb
  exact
    { addr_zero := h.addr_zero
      bus_sel := h.bus_sel
      ddram_wf := h.ddram_wf
      cgram_wf := h.cgram_wf
      plan_length := requestPlan_length_le _ _ _ hlegal
      seq_le := Nat.zero_le _
      idle := nofun
      running := fun _ => ⟨encodeRequest i, rfl, by rw [decodeRequest_encodeRequest]; rfl,
        haddr (needsAddress_of_plan_ne_nil hplan), fun hn => by
          rw [decodeRequest_encodeRequest] at hn
          simpa [isInit_of_needsReady hn] using hready hn⟩
      initializing := by
        have hreq : (accepted i s).req = some (encodeRequest i) := rfl
        simp [hreq, decodeRequest_encodeRequest, h.not_initializing hb]
      in_flight := fun it hit => nomatch hflight.symm.trans hit }

theorem after_answer (h : Invariant s) (hb : s.busy = false) (hplan : (accepted i s).plan = []) (bs : List Byte) :
    Invariant (endRequest .ok bs (accepted i s)) := by
  obtain ⟨hinit, -, -⟩ := preEffects_of_plan_nil hplan
  exact h.of_idle ⟨rfl, rfl, rfl, rfl⟩ h.display_wf (by rw [endRequest_plan, hplan]; exact Nat.zero_le _)
    (Nat.zero_le _) rfl (h.idle hb).1 rfl (by simpa [hinit] using h.not_initializing hb)

theorem after_refuse (h : Invariant s) (hb : s.busy = false) (code : ResultCode) : Invariant (raiseError code s) :=
  h.of_idle ⟨rfl, rfl, rfl, rfl⟩ h.display_wf h.plan_length h.seq_le rfl (h.idle hb).1 rfl (h.not_initializing hb)

/-! ### Running a plan -/

theorem after_wait (h : Invariant s) : Invariant { s with tmr := 0 } :=
  h.of_sameRequest ⟨⟨rfl, rfl, rfl, rfl⟩, rfl, rfl, rfl, rfl, rfl⟩ h.display_wf h.seq_le h.idle
    fun it hit => ⟨(h.in_flight it hit).1, rfl, (h.in_flight it hit).2.2⟩

theorem after_issue (h : Invariant s) (hb : s.busy = true) (ht : s.tmr = 0) (ha : s.aborting = false)
    (hp : s.plan[s.seq.toNat]? = some it) : Invariant { s with flight := some it } :=
  h.of_sameRequest ⟨⟨rfl, rfl, rfl, rfl⟩, rfl, rfl, rfl, rfl, rfl⟩ h.display_wf h.seq_le
    (fun hi => absurd (hi.symm.trans hb) Bool.false_ne_true) fun _ hit => ⟨ha, ht, hit ▸ hp⟩

/-- SEQ has room for one more while an item is on the bus. -/
theorem seq_succ_le (h : Invariant s) (hf : s.flight = some it) : (s.seq + 1).toNat ≤ s.plan.length := by
  obtain ⟨-, -, hp⟩ := h.in_flight it hf
  have hlt : s.seq.toNat < s.plan.length := (List.getElem?_eq_some_iff.1 hp).1
  rw [BitVec.toNat_add]
  exact (Nat.mod_le _ _).trans hlt

theorem after_itemDone (h : Invariant s) (hb : s.busy = true) (hf : s.flight = some it) (data : List Byte) :
    Invariant (itemDone i it data s) :=
  h.of_sameRequest (by simp [SameRequest, SameWiring]) (by simpa using displayWf_done s.cfg i it h.display_wf)
    (by simpa using h.seq_succ_le hf) (by simp [hb]) (by simp)

theorem after_itemFailed (h : Invariant s) (hb : s.busy = true) : Invariant (itemFailed i it s) :=
  h.of_sameRequest (by simp [SameRequest, SameWiring]) (by simpa using displayWf_failed it h.display_wf)
    (by simpa using h.seq_le) (by simp [hb]) (by simp)

theorem after_abort (h : Invariant s) (hx : Executes s r) (hf : s.flight = none) :
    Invariant (abortRequest (decodeRequest r) s) :=
  h.of_idle (by simp [SameWiring]) (by simpa using h.display_wf) (by simpa using h.plan_length)
    (by simpa using h.seq_le) rfl (by simpa using hf) rfl
    (by rw [abortRequest_pstate]; exact h.ended_ne_initializing hx (by decide))

theorem displayWf_onDone (h : Invariant s) : displayWf (onDone i s).display := by
  cases i with
  | init a b p => exact displayWf_initDone h.display_wf
  | ldglyph a b p => exact displayWf_loadDone h.display_wf
  | _ => exact h.display_wf

theorem after_finish (h : Invariant s) (hx : Executes s r) (hf : s.flight = none) :
    Invariant (finishRequest (decodeRequest r) s) :=
  h.of_idle (by simp [SameWiring]) h.displayWf_onDone (by simpa using h.plan_length)
    (by simpa using h.seq_le) rfl (by simpa using hf) rfl
    (by rw [finishRequest_pstate]; exact h.ended_ne_initializing hx (by decide))

/-- A reset keeps the invariant: the display it leaves is as it was, or unknown. -/
theorem after_reset (h : Invariant s) : Invariant (applyReset s) := by
  refine of_reset (c := s.cfg) (p := nextProbe s) rfl ?_
  unfold applyReset
  dsimp only
  split_ifs
  · exact displayWf_allUnknown
  · exact h.display_wf

end Invariant

/-- Settles O6, by the cases of a step, one `after_` lemma each. -/
theorem invKeptByStep : Obligations.InvKeptByStep := by
  intro s t h hst
  cases stepTo_of_step hst with
  | reset hr => exact h.after_reset
  | @accept i port rx hu hok hplan => exact (h.after_fetch port rx).after_accept hu.2.1 hok hplan
  | @answer i port rx hu hok hplan => exact (h.after_fetch port rx).after_answer hu.2.1 hplan _
  | @refuse i port rx hu herr => exact (h.after_fetch port rx).after_refuse hu.2.1 _
  | idle hr hb hnone => exact h.after_wait
  | gap hx hf ht => exact h.after_wait
  | issue hx hf ht ha hp => exact h.after_issue hx.2.1 ht ha hp
  | hang hx hf hans => exact h
  | itemDone hx hf hans hdata => exact h.after_itemDone hx.2.1 hf _
  | itemFailed hx hf hans => exact h.after_itemFailed hx.2.1
  | abort hx hf ht ha => exact h.after_abort hx hf
  | finish hx hf ht ha hp => exact h.after_finish hx hf

/-- Settles O7: the display is the one at power-up. -/
theorem invAtReset : Obligations.InvAtReset :=
  have h (c p) : Invariant (State.resetWith c p) := Invariant.of_reset rfl displayWf_allUnknown
  ⟨h, h _ _⟩

/-- Settles O10: every field but ADDR_OK is the literal of `State.resetWith`. -/
theorem resetValues : Obligations.ResetValues := by
  rintro c p s rfl
  exact ⟨rfl, rfl, rfl, rfl, rfl, rfl, rfl, rfl, rfl, rfl, rfl, rfl, resolvedOk_eq c p, rfl, rfl, rfl, rfl, rfl, rfl⟩

end Sys2Proof.Machine
end

section
/-! PROOFS. Who writes the block's registers (10_state.md R21, R22, R26, R28, R29). -/

namespace Sys2Proof.Machine

theorem bkl_of_newBacklight_ne {i : Instr} {bl : Bool} (h : newBacklight i bl ≠ bl) :
    ∃ a b p, i = .bkl a b p ∧ newBacklight i bl = backlightMode a bl := by
  cases i with
  | bkl a b p => exact ⟨a, b, p, rfl, rfl⟩
  | _ => exact absurd rfl h

/-! ### DESYNC: the snoop and a failed write only set it; INIT's end clears it -/

theorem snoop_keeps_desync {s : State} (b : Byte) (h : s.desync = true) : (snoop b s).desync = true := by
  unfold snoop
  split_ifs <;> simp [h]

theorem itemDone_keeps_desync {s : State} (i : Instr) (it : Item) (data : List Byte) (h : s.desync = true) :
    (itemDone i it data s).desync = true := by
  rw [itemDone_eq]
  dsimp only
  split
  · exact snoop_keeps_desync _ h
  · exact h

theorem itemFailed_keeps_desync {s : State} (i : Instr) (it : Item) (h : s.desync = true) :
    (itemFailed i it s).desync = true := by
  unfold itemFailed
  rw [onFail_desync]
  cases it.kind with
  | enh | enl => rfl
  | _ => exact h

@[simp] theorem finishRequest_desync (i : Instr) (s : State) :
    (finishRequest i s).desync = (!isInit i && s.desync) := by
  cases i <;> rfl

/-! ### CG_VALID: written at the end of an LDGLYPH and at its failing item -/

theorem finishRequest_cgValid (i : Instr) (s : State) :
    (finishRequest i s).cgValid = s.cgValid ∨ (∃ a b p, i = .ldglyph a b p) ∧ (finishRequest i s).cgValid = true := by
  cases i with
  | ldglyph a b p => exact .inr ⟨⟨a, b, p, rfl⟩, rfl⟩
  | _ => exact .inl rfl

theorem itemFailed_cgValid (i : Instr) (it : Item) (s : State) :
    (itemFailed i it s).cgValid = s.cgValid ∨
      (∃ a b p, i = .ldglyph a b p) ∧ (itemFailed i it s).cgValid = false := by
  cases i with
  | ldglyph a b p => exact .inr ⟨⟨a, b, p, rfl⟩, rfl⟩
  | _ => exact .inl (strobeFailed_cgValid _ _)

/-! ### The statements -/

/-- Settles O33, by the cases of a step: the one that writes BL, beside reset, takes a BKL, whose plan is not empty. -/
theorem backlightOwner : Obligations.BacklightOwner := by
  intro s t hst hne
  cases stepTo_of_step hst with
  | reset hr => exact .inl hr
  | accept hu hok hplan =>
    obtain ⟨a, b, p, rfl, hbl⟩ := bkl_of_newBacklight_ne hne
    exact .inr ⟨a, b, p, _, hu.2.1, hu.2.2, hbl, rfl⟩
  | answer hu hok hplan =>
    obtain ⟨-, -, hbl⟩ := preEffects_of_plan_nil hplan
    exact absurd (hbl s.bl) hne
  | refuse hu herr => exact absurd rfl hne
  | _ => exact absurd (by simp [idleStep]) hne

/-- Settles O51, by the cases of a step: INIT is accepted, aborted or finished; the invariant says that it then is, or was,
INITIALIZING. -/
theorem protocolStateMoves : Obligations.ProtocolStateMoves := by
  intro s t h hst hne
  cases stepTo_of_step hst with
  | reset hr => exact .inl ⟨hr, rfl⟩
  | @accept i port rx hu hok hplan =>
    have hi : isInit i = true := by_contra fun hn => hne (if_neg hn)
    exact .inr ⟨hu.1, ⟨i, hu.currentInstr, hi⟩, .inl ⟨hu.2.1, if_pos hi⟩⟩
  | answer hu hok hplan =>
    obtain ⟨hi, -, -⟩ := preEffects_of_plan_nil hplan
    exact absurd (by simp [hi]) hne
  | refuse hu herr => exact absurd rfl hne
  | @abort r hx hf ht ha =>
    have hi : isInit (decodeRequest r) = true :=
      by_contra fun hn => hne ((abortRequest_pstate _ s).trans (if_neg hn))
    exact .inr ⟨hx.1, ⟨_, hx.currentInstr, hi⟩,
      .inr ⟨(h.initializing_iff hx).2 hi, hx.2.1, rfl, .inr (by simp [hi, failCode])⟩⟩
  | @finish r hx hf ht ha hp =>
    have hi : isInit (decodeRequest r) = true :=
      by_contra fun hn => hne ((finishRequest_pstate _ s).trans (if_neg hn))
    exact .inr ⟨hx.1, ⟨_, hx.currentInstr, hi⟩,
      .inr ⟨(h.initializing_iff hx).2 hi, hx.2.1, rfl, .inl (by simp [hi])⟩⟩
  | _ => exact absurd (by simp [idleStep]) hne

/-- Settles O52, by the cases of a step: all but the end of a request keep a set DESYNC. -/
theorem desyncClearedByInitOnly : Obligations.DesyncClearedByInitOnly := by
  intro s t h hst hs ht
  rw [← Bool.not_eq_true] at ht
  cases stepTo_of_step hst with
  | reset hr => exact absurd rfl ht
  | accept hu hok hplan | answer hu hok hplan => exact absurd (by simp [hs]) ht
  | itemDone hx hf hans hdata => exact absurd (itemDone_keeps_desync _ _ _ hs) ht
  | itemFailed hx hf hans => exact absurd (itemFailed_keeps_desync _ _ hs) ht
  | abort hx hf hz ha => exact absurd (by simpa using hs) ht
  | @finish r hx hf hz ha hp =>
    have hi : isInit (decodeRequest r) = true := by simpa [hs] using ht
    exact ⟨(h.initializing_iff hx).2 hi, by simp [hi], rfl⟩
  | _ => exact absurd hs ht

/-- Settles O53, by the cases of a step: only the end and the failing item of an LDGLYPH, and reset, write CG_VALID. -/
theorem glyphFlagOwner : Obligations.GlyphFlagOwner := by
  intro s t h hst hne
  cases stepTo_of_step hst with
  | reset hr => exact .inl ⟨hr, rfl⟩
  | itemFailed hx hf hans =>
    obtain heq | ⟨⟨a, b, p, hi⟩, hv⟩ := itemFailed_cgValid _ _ s
    · exact absurd heq hne
    · exact .inr ⟨a, b, p, hx.2.1, hi ▸ hx.currentInstr, .inr ⟨hv, by simp⟩⟩
  | finish hx hf ht ha hp =>
    obtain heq | ⟨⟨a, b, p, hi⟩, hv⟩ := finishRequest_cgValid _ s
    · exact absurd heq hne
    · exact .inr ⟨a, b, p, hx.2.1, hi ▸ hx.currentInstr, .inl ⟨hv, rfl, rfl⟩⟩
  | accept hu hok hplan | answer hu hok hplan | refuse hu herr => exact absurd rfl hne
  | _ => exact absurd (by simp [idleStep]) hne

/-- Settles O54, by the cases of a step: a request that is refused, answered at once, aborted or finished ends with
`endRequest`; no other step writes LAST_ERR or gives a response. -/
theorem lastErrIsResponseCode : Obligations.LastErrIsResponseCode := by
  intro s t hrst hst
  cases stepTo_of_step hst with
  | reset hr => exact absurd (hrst.symm.trans hr) Bool.false_ne_true
  | accept hu hok hplan => exact .inl ⟨rfl, rfl⟩
  | answer hu hok hplan => exact .inr ⟨_, rfl, fun hk => absurd rfl hk, rfl⟩
  | refuse hu herr => exact .inr ⟨[], rfl, fun _ => rfl, rfl⟩
  | abort hx hf ht ha => exact .inr ⟨[], by simp, fun _ => rfl, rfl⟩
  | finish hx hf ht ha hp => exact .inr ⟨s.rdata, by simp, fun hk => absurd rfl hk, rfl⟩
  | _ => exact .inl (by simp [idleStep])

end Sys2Proof.Machine
end

section
/-! PROOFS. The status word (10_state.md R34, R35), bit by bit. -/

namespace Sys2Proof.Machine

/-- Bit `i` of the status word: its fields in the order of 10_state.md R35, low bits first. -/
theorem statusWord_getLsbD (s : State) (i : Nat) :
    (statusWord s).getLsbD i =
      if i < 2 then (pstateBits s.pstate).getLsbD i
      else if i = 2 then s.bl else if i = 3 then s.emId else if i = 4 then s.emS
      else if i = 5 then s.fsDl else if i = 6 then s.fsN else if i = 7 then s.fsF
      else if i < 12 then (resultBits s.lastErr).getLsbD (i - 8)
      else if i = 12 then s.cgValid else if i = 13 then s.acUnk else if i = 14 then s.addrOk
      else if i = 15 then s.desync
      else if i < 23 then BitVec.getLsbD s.addr (i - 16)
      else if i = 23 then s.busSel.getLsbD 0 else if i = 24 then s.busy else false := by
  change BitVec.getLsbD (w := 7 + 1 + 1 + 7 + 1 + 1 + 1 + 1 + 4 + 1 + 1 + 1 + 1 + 1 + 1 + 2) (_ ++ _) i = _
  simp only [BitVec.getLsbD_append, BitVec.getLsbD_ofBool, BitVec.getLsbD_zero]
  by_cases hi : i < 25
  · interval_cases i <;> simp
  · repeat' rw [if_neg (by omega)]

/-- A field of the status word, from its bits. -/
theorem statusWord_field {s : State} {start len : Nat} {x : BitVec len}
    (h : ∀ i < len, (statusWord s).getLsbD (start + i) = x.getLsbD i) : (statusWord s).extractLsb' start len = x := by
  ext i hi
  rw [BitVec.getElem_extractLsb', h i hi, BitVec.getLsbD_eq_getElem hi]

section
variable (s : State)

theorem statusWord_pstate : (statusWord s).extractLsb' 0 2 = pstateBits s.pstate :=
  statusWord_field fun i hi => by rw [statusWord_getLsbD]; interval_cases i <;> rfl

theorem statusWord_lastErr : (statusWord s).extractLsb' 8 4 = resultBits s.lastErr :=
  statusWord_field fun i hi => by rw [statusWord_getLsbD]; interval_cases i <;> rfl

theorem statusWord_addr : (statusWord s).extractLsb' 16 7 = s.addr :=
  statusWord_field fun i hi => by rw [statusWord_getLsbD]; interval_cases i <;> rfl

theorem statusWord_busSel : (statusWord s).extractLsb' 23 1 = s.busSel :=
  statusWord_field fun i hi => by rw [statusWord_getLsbD]; interval_cases i; rfl

theorem statusWord_high : (statusWord s).extractLsb' 25 7 = 0#7 :=
  statusWord_field fun i hi => by rw [statusWord_getLsbD]; interval_cases i <;> rfl

end

/-- Settles O55, from the word's bits: each field is read back bit by bit, and the two codes by their tables. -/
theorem statusWordFields : Obligations.StatusWordFields := by
  intro s
  refine ⟨?pstate, ?_, ?_, ?_, ?_, ?_, ?_, ?lastErr, ?_, ?_, ?_, ?_, statusWord_addr s, statusWord_busSel s, ?_,
    statusWord_high s⟩
  case pstate => rw [statusWord_pstate]; cases s.pstate <;> rfl
  case lastErr => rw [statusWord_lastErr]; cases s.lastErr <;> rfl
  all_goals rw [statusWord_getLsbD]; rfl

end Sys2Proof.Machine
end

section
/-! PROOFS. The bus: a transaction is issued in plan order, and what a failure and the end of a request leave of the
display (20_memory.md R66, R84). -/

namespace Sys2Proof.Machine

/-- Settles O39, by the cases of a step: all but the issuing one leave an empty bus empty. -/
theorem issueInOrder : Obligations.IssueInOrder := by
  intro s t it hempty hrst hst hit
  cases stepTo_of_step hst with
  | issue hx hf ht ha hp =>
    cases hit
    exact ⟨hx.2.1, ht, ha, hp, rfl⟩
  | reset hr => exact absurd (hrst.symm.trans hr) Bool.false_ne_true
  | hang hx hf hans | itemDone hx hf hans hdata | itemFailed hx hf hans => exact nomatch hempty.symm.trans hf
  | abort hx hf ht ha => exact nomatch hempty.symm.trans ((abortRequest_flight _ s).symm.trans hit)
  | finish hx hf ht ha hp => exact nomatch hempty.symm.trans ((finishRequest_flight _ s).symm.trans hit)
  | _ => exact nomatch hempty.symm.trans hit

theorem applyReset_display (s : State) :
    (applyReset s).display = if s.busy then Display.allUnknown else s.display := rfl

/-- Only the end of a completed request makes known what was unknown of the mode and of CGRAM as a whole. -/
theorem StepTo.knowsNoMore_or_finish {s t : State} (h : StepTo s t) :
    KnowsNoMore s.display t.display ∨ ∃ r, Executes s r ∧ t = finishRequest (decodeRequest r) s := by
  cases h with
  | @finish r hx hf ht ha hp => exact .inr ⟨r, hx, rfl⟩
  | itemDone hx hf hans hdata =>
    rw [itemDone_display]
    exact .inl (knowsNoMore_done _ _ _ _)
  | itemFailed hx hf hans =>
    rw [itemFailed_display]
    exact .inl (knowsNoMore_failed _ _)
  | reset hr =>
    rw [applyReset_display]
    split_ifs
    · exact .inl (knowsNoMore_allUnknown _)
    · exact .inl (.refl _)
  | abort hx hf ht ha =>
    rw [abortRequest_display]
    exact .inl (.refl _)
  | _ => exact .inl (.refl _)

theorem finishRequest_display_cgKnown {i : Instr} {s : State} (hs : s.display.cgKnown = false)
    (ht : (finishRequest i s).display.cgKnown = true) : ∃ a b p, i = .ldglyph a b p := by
  cases i with
  | ldglyph a b p => exact ⟨a, b, p, rfl⟩
  | _ => exact absurd (hs.symm.trans ht) Bool.false_ne_true

theorem displayLoadDone_mode (d : Display) : (displayLoadDone d).mode = d.mode := by
  unfold displayLoadDone
  split <;> rfl

theorem finishRequest_display_mode {i : Instr} {s : State} (hs : s.display.mode = .unknown)
    (ht : (finishRequest i s).display.mode = .four) : ∃ a b p, i = .init a b p := by
  cases i with
  | init a b p => exact ⟨a, b, p, rfl⟩
  | ldglyph a b p => exact nomatch hs.symm.trans ((displayLoadDone_mode _).symm.trans ht)
  | _ => exact nomatch hs.symm.trans ht

theorem displayFailed_write {it : Item} (hk : it.kind ≠ .rawr) (d : Display) :
    displayFailed it d = Display.allUnknown := by
  unfold displayFailed
  cases h : it.kind with
  | rawr => exact absurd h hk
  | _ => rfl

theorem glyphEntry_of_unknown {d : Display} (h : d.cgKnown = false) (a : Nat) : glyphEntry d a = none := by
  simp [glyphEntry, h]

/-- Settles O60: a failed write leaves `Display.allUnknown`; of all steps only the end of a completed request can make the
mode or CGRAM known, and only INIT's and LDGLYPH's do. -/
theorem failedWriteUnknown : Obligations.FailedWriteUnknown := by
  refine ⟨?failed, fun d h => glyphEntry_of_unknown h, ?cgram, ?mode⟩
  case failed =>
    intro s r it rest hbus hans hk
    have hd : (answerItem (decodeRequest r) it s).display = Display.allUnknown := by
      rw [answerItem_fail hans, itemFailed_display, displayFailed_write hk]
    exact ⟨_, step_onBus hbus, hd, fun a => by rw [hd]; rfl, glyphEntry_of_unknown (by rw [hd]; rfl)⟩
  case cgram =>
    intro s t hst hs ht
    obtain hno | ⟨r, hx, rfl⟩ := (stepTo_of_step hst).knowsNoMore_or_finish
    · exact absurd (hs.symm.trans (hno.1 ht)) Bool.false_ne_true
    · obtain ⟨a, b, p, hi⟩ := finishRequest_display_cgKnown hs ht
      exact ⟨hx.1, hx.2.1, rfl, by rw [hi]; rfl, a, b, p, hi ▸ hx.currentInstr⟩
  case mode =>
    intro s t hst hs ht
    obtain hno | ⟨r, hx, rfl⟩ := (stepTo_of_step hst).knowsNoMore_or_finish
    · exact nomatch hs.symm.trans (hno.2 ht)
    · obtain ⟨a, b, p, hi⟩ := finishRequest_display_mode hs ht
      exact ⟨hx.1, hx.2.1, rfl, by rw [hi]; rfl, a, b, p, hi ▸ hx.currentInstr⟩

end Sys2Proof.Machine
end

section
/-! PROOFS. The reference display executes a byte (20_memory.md R76 to R83). -/

namespace Sys2Proof.Machine

/-- A bit that a mask selects is the bit of the masked value. -/
theorem getLsbD_of_and_eq {w : Nat} {b m v : BitVec w} (h : b &&& m = v) {i : Nat} (hm : m.getLsbD i = true) :
    b.getLsbD i = v.getLsbD i := by
  rw [← h, BitVec.getLsbD_and, hm, Bool.and_true]

/-- Settles O56: the mask of each class fixes the bits down to its leading one, which select the branch. -/
theorem displayCommands : Obligations.DisplayCommands := by
  intro b d
  refine ⟨?clear, ?home, ?entry, ?control, ?shift, ?function, ?cgAddress, ?ddAddress, ?nothing, ?filled⟩
  case clear => rintro rfl; rfl
  case nothing => rintro rfl; rfl
  case filled => exact memRead_memFill 128 0x20#8
  all_goals
    intro h
    simp only [displayCommand, getLsbD_of_and_eq h, BitVec.reduceGetLsb, ↓reduceIte, Bool.false_eq_true]

/-! ### Data bytes, by the memory TGT names -/

section
variable {d : Display} {a : BitVec 7} (b : Byte)

theorem displayData_dd (ht : d.tgt = some .dd) (ha : d.ac = some a) : displayData b d =
    { d with ddram := memWrite d.ddram a.toNat b, ac := advanceDd d.twoLine d.incr a } := by
  simp [displayData, ht, ha]

theorem displayData_cg (ht : d.tgt = some .cg) (ha : d.ac = some a) : displayData b d =
    { d with cgram := memWrite d.cgram (a.toNat % 64) (b.extractLsb' 0 5), ac := advanceCg d.incr a } := by
  simp [displayData, ht, ha]

theorem displayData_dd_unknown (ht : d.tgt = some .dd) (ha : d.ac = none) : displayData b d = { d with ddram := [] } := by
  simp [displayData, ht, ha]

theorem displayData_cg_unknown (ht : d.tgt = some .cg) (ha : d.ac = none) : displayData b d = { d with cgram := [] } := by
  simp [displayData, ht, ha]

theorem displayData_unknown (ht : d.tgt = none) : displayData b d = { d with ddram := [], cgram := [], ac := none } := by
  simp [displayData, ht]

end

theorem displayData_cgKnown (b : Byte) (d : Display) : (displayData b d).cgKnown = d.cgKnown := by
  unfold displayData
  split
  · split <;> rfl
  · split <;> rfl
  · rfl

theorem advanceDd_unknown {two up : Option Bool} (h : up = none ∨ two = none) (a : BitVec 7) :
    advanceDd two up a = none := by
  obtain rfl | rfl := h
  · cases two <;> rfl
  · rfl

theorem sameRange_iff (two : Bool) (a a' : BitVec 7) : sameRange two a a' = true ↔
    if two then (a.toNat ≤ 0x27 ∧ a'.toNat ≤ 0x27) ∨
      (0x40 ≤ a.toNat ∧ a.toNat ≤ 0x67 ∧ 0x40 ≤ a'.toNat ∧ a'.toNat ≤ 0x67)
    else a.toNat ≤ 0x4F ∧ a'.toNat ≤ 0x4F := by
  cases two <;> simp [sameRange]

theorem toNat_append_div_mod {m n : Nat} (x : BitVec m) (y : BitVec n) :
    (x ++ y).toNat / 2 ^ n = x.toNat ∧ (x ++ y).toNat % 2 ^ n = y.toNat := by
  have h : (x ++ y).toNat = y.toNat + 2 ^ n * x.toNat := by
    rw [BitVec.toNat_append, ← Nat.shiftLeft_add_eq_or_of_lt y.isLt, Nat.shiftLeft_eq, Nat.mul_comm, Nat.add_comm]
  rw [h, Nat.add_mul_div_left _ _ (Nat.two_pow_pos n), Nat.add_mul_mod_self_left, Nat.div_eq_of_lt y.isLt,
    Nat.mod_eq_of_lt y.isLt, Nat.zero_add]
  exact ⟨rfl, rfl⟩

/-- AC[6] stays and AC[5:0] moves by one modulo 64 (20_memory.md R83). -/
theorem advanceCg_known (up : Bool) (a : BitVec 7) : ∃ a', advanceCg (some up) a = some a' ∧
    a'.toNat / 64 = a.toNat / 64 ∧ a'.toNat % 64 = (a.toNat + if up then 1 else 63) % 64 := by
  obtain ⟨hdiv, hmod⟩ := toNat_append_div_mod (a.extractLsb' 6 1)
    (if up then a.extractLsb' 0 6 + 1 else a.extractLsb' 0 6 - 1)
  refine ⟨_, rfl, hdiv.trans ?_, hmod.trans ?_⟩
  · have := a.isLt
    simp [Nat.shiftRight_eq_div_pow]
    omega
  · cases up <;> simp [Nat.add_comm]

/-- Settles O57, by the memory TGT names: a read after a write, and the address counter's two ways to advance. -/
theorem displayDataStored : Obligations.DisplayDataStored := by
  refine ⟨fun b d a two up ha htwo hup => ⟨?dd, ?cg⟩, fun b d => ⟨displayData_cgKnown b d, fun _ => rfl⟩, ?ddAdvance,
    ?cgAdvance, fun b _ => displayData_dd_unknown b, fun b _ => displayData_cg_unknown b, fun b _ => displayData_unknown b⟩
  case dd =>
    intro ht
    rw [displayData_dd b ht ha, htwo, hup]
    refine ⟨memRead_memWrite_same _ _ _, fun x => memRead_memWrite_other _ _ _ _, rfl, ?_⟩
    rintro a' rfl
    exact if_congr (sameRange_iff two a _) rfl rfl
  case cg =>
    intro ht
    rw [displayData_cg b ht ha, hup]
    exact ⟨memRead_memWrite_same _ _ _, fun x => memRead_memWrite_other _ _ _ _, rfl, advanceCg_known up a⟩
  case ddAdvance =>
    intro b d a ht ha hunknown
    rw [displayData_dd b ht ha, advanceDd_unknown hunknown]
  case cgAdvance =>
    intro b d a ht ha hup
    rw [displayData_cg b ht ha, hup]
    rfl

end Sys2Proof.Machine
end

section
/-! PROOFS. The four writes of a full byte reach the reference display (20_memory.md R72, R73, R75): what the bits of an
expander byte say, then one nibble, then the byte. -/

namespace Sys2Proof.Machine

theorem bitAt_getLsbD (i : Nat) (v : Bool) {k : Nat} (hk : k < 8) : (bitAt i v).getLsbD k = (v && decide (k = i)) := by
  cases v with
  | false => simp [bitAt]
  | true => exact (BitVec.getLsbD_twoPow i k).trans (by grind)

/-- A control bit of an expander byte (30_encoding.md R93). -/
theorem expByte_getLsbD_of_lt (c : Config) (d : Nibble) (rs en bl : Bool) {k : Nat} (hk : k < 4) :
    (expByte c d rs en bl).getLsbD k =
      (rs && decide (k = c.pRs) || en && decide (k = c.pEn) || bl && decide (k = c.pBl)) := by
  have h8 : k < 8 := by omega
  have hd : (d.setWidth 8 <<< 4).getLsbD k = false := by simp [h8, hk]
  simp only [expByte, BitVec.getLsbD_or, bitAt_getLsbD _ _ h8, hd, Bool.false_or]

section
variable {c : Config} (hc : controlBitsLegal c = true)
include hc

theorem expByte_control (d : Nibble) (rs en bl : Bool) :
    (expByte c d rs en bl).getLsbD c.pRs = rs ∧ (expByte c d rs en bl).getLsbD c.pRw = false ∧
      (expByte c d rs en bl).getLsbD c.pEn = en := by
  simp only [controlBitsLegal, decide_eq_true_eq] at hc
  obtain ⟨hRs, hRw, hEn, hBl, hne⟩ := hc
  simp only [expByte_getLsbD_of_lt, hRs, hRw, hEn]
  grind

theorem highNibble_expByte (d : Nibble) (rs en bl : Bool) : highNibble (expByte c d rs en bl) = d := by
  simp only [controlBitsLegal, decide_eq_true_eq] at hc
  obtain ⟨hRs, -, hEn, hBl, -⟩ := hc
  ext i hi
  have h8 : 4 + i < 8 := by omega
  have hd : (d.setWidth 8 <<< 4).getLsbD (4 + i) = d[i] := by simp [h8, hi]
  have hne {k : Nat} (hk : k < 4) : decide (4 + i = k) = false := decide_eq_false (by omega)
  simp only [highNibble, BitVec.getElem_extractLsb', expByte, BitVec.getLsbD_or, bitAt_getLsbD _ _ h8, hd, hne hRs, hne hEn,
    hne hBl, Bool.and_false, Bool.or_false]

end

/-! ### Bytes and strobes on the display -/

theorem highNibble_append_lowNibble (b : Byte) : highNibble b ++ lowNibble b = b :=
  BitVec.extractLsb'_append_extractLsb'

/-- `d` with what a strobe pairs: the latch, the half expected next, the pending nibble and its select (20_memory.md R71). -/
def withStrobe (q : Option Byte) (ph : Option Phase) (n : Option Nibble) (rs : Option Bool) (d : Display) : Display :=
  { d with q := q, phase := ph, hn := n, hrs := rs }

section
variable (q : Option Byte) (ph : Option Phase) (n : Option Nibble) (r : Option Bool) (b : Byte) (d : Display)

theorem displayData_withStrobe : displayData b (withStrobe q ph n r d) = withStrobe q ph n r (displayData b d) := by
  unfold displayData withStrobe
  dsimp only
  split
  · split <;> rfl
  · split <;> rfl
  · rfl

theorem displayCommand_withStrobe :
    displayCommand b (withStrobe q ph n r d) = withStrobe q ph n r (displayCommand b d) := by
  simp only [displayCommand, apply_ite (withStrobe q ph n r)]
  rfl

/-- Executing a byte neither reads nor writes what a strobe pairs. -/
theorem displayByte_withStrobe (rs : Bool) :
    displayByte rs b (withStrobe q ph n r d) = withStrobe q ph n r (displayByte rs b d) := by
  cases rs with
  | true => exact displayData_withStrobe q ph n r b d
  | false => exact displayCommand_withStrobe q ph n r b d

end

section
variable {c : Config} {v : Byte} {d : Display} (hrw : v.getLsbD c.pRw = false) (hmode : d.mode = .four)
include hrw hmode

theorem displayStrobe_hi (hphase : d.phase = some .hi) : displayStrobe c true v d =
    { d with hn := some (highNibble v), hrs := some (v.getLsbD c.pRs), phase := some .lo } := by
  simp [displayStrobe, hrw, hmode, hphase]

theorem displayStrobe_lo (hphase : d.phase = some .lo) {h : Nibble} {rs : Bool} (hhn : d.hn = some h)
    (hhrs : d.hrs = some rs) (hrs : v.getLsbD c.pRs = rs) :
    displayStrobe c true v d = { displayByte rs (h ++ highNibble v) d with phase := some .hi } := by
  simp [displayStrobe, hrw, hmode, hphase, hhn, hhrs, hrs]

end

/-! ### Nibbles and bytes on the bus -/

theorem isInit_of_followsStrobe {i : Instr} (h : followsStrobe i = true) : isInit i = false := by
  cases i with
  | init a b p => exact absurd h Bool.false_ne_true
  | _ => rfl

theorem latchAll_append (c : Config) (i : Instr) (l m : List Item) (d : Display) :
    latchAll c i (l ++ m) d = latchAll c i m (latchAll c i l d) := List.foldl_append

section
variable {c : Config} {i : Instr} (hc : controlBitsLegal c = true) (hi : followsStrobe i = true)
include hc hi

/-- The two writes of a nibble strobe it once, from any latch: the first one raises the enable line. -/
theorem latchAll_nibItems (bl : Bool) (n : Nibble) (rs : Bool) (extra : Nat) (done : Option (Byte × Bool)) (d : Display) :
    latchAll c i (nibItems c bl n rs extra done) d =
      displayStrobe c true (expByte c n rs false bl) { d with q := some (expByte c n rs false bl) } := by
  obtain ⟨-, -, hhigh⟩ := expByte_control hc n rs true bl
  obtain ⟨-, -, hlow⟩ := expByte_control hc n rs false bl
  simp [latchAll, nibItems, displayDone, isInit_of_followsStrobe hi, hi, displayLatch, hhigh, hlow]

section
variable (bl : Bool) (n : Nibble) (rs : Bool) (extra : Nat) (done : Option (Byte × Bool)) {d : Display}
  (hmode : d.mode = .four)
include hmode

/-- The nibble is kept as a byte's high one. -/
theorem latchAll_nibItems_hi (hphase : d.phase = some .hi) : latchAll c i (nibItems c bl n rs extra done) d =
    withStrobe (some (expByte c n rs false bl)) (some .lo) (some n) (some rs) d := by
  obtain ⟨hrs, hrw, -⟩ := expByte_control hc n rs false bl
  rw [latchAll_nibItems hc hi, displayStrobe_hi hrw (by exact hmode) (by exact hphase), hrs, highNibble_expByte hc]
  rfl

/-- The nibble completes a byte, which is executed. -/
theorem latchAll_nibItems_lo {h : Nibble} (hphase : d.phase = some .lo) (hhn : d.hn = some h) (hhrs : d.hrs = some rs) :
    latchAll c i (nibItems c bl n rs extra done) d =
      withStrobe (some (expByte c n rs false bl)) (some .hi) (some h) (some rs) (displayByte rs (h ++ n) d) := by
  obtain ⟨hrs, hrw, -⟩ := expByte_control hc n rs false bl
  have hbyte : displayByte rs (h ++ n) { d with q := some (expByte c n rs false bl) } = _ :=
    displayByte_withStrobe (some (expByte c n rs false bl)) d.phase d.hn d.hrs (h ++ n) d rs
  rw [latchAll_nibItems hc hi, displayStrobe_lo hrw (by exact hmode) (by exact hphase) (by exact hhn) (by exact hhrs) hrs,
    highNibble_expByte hc, hbyte, hhn, hhrs]
  rfl

end

/-- The four writes of a byte: the display executes it. -/
theorem latchAll_byteItemsWith (bl : Bool) (b : Byte) (rs : Bool) (extra : Nat) {d : Display} (hmode : d.mode = .four)
    (hphase : d.phase = some .hi) : latchAll c i (byteItemsWith c bl b rs extra) d =
      withStrobe (some (expByte c (lowNibble b) rs false bl)) (some .hi) (some (highNibble b)) (some rs)
        (displayByte rs b d) := by
  rw [byteItemsWith, latchAll_append, latchAll_nibItems_hi hc hi bl _ rs _ _ hmode hphase,
    latchAll_nibItems_lo hc hi bl _ rs _ _ (by exact hmode) rfl rfl rfl, highNibble_append_lowNibble,
    displayByte_withStrobe]
  rfl

end

/-- Settles O58, from what the four writes leave. -/
theorem byteReachesDisplay : Obligations.ByteReachesDisplay := by
  intro c i bl rs b d hlegal hstep hi
  obtain ⟨hmode, hphase, -⟩ := hstep
  have hc : controlBitsLegal c = true := by simp_all [configLegal]
  have he := latchAll_byteItemsWith hc hi bl b rs 0 hmode hphase
  exact ⟨_, he, rfl, rfl⟩

end Sys2Proof.Machine
end

section
/-! PROOFS. The bytes of a request, both ways (30_encoding.md R90, R103): the byte-serial decoder reads exactly the bytes
of a request whose payload has the length its header frames, and such a request and its instruction determine each other. -/

namespace Sys2Proof

/-- The payload has the length that the header, with XWBLK's count byte, frames (R103). -/
def PayloadFramed (r : Request) : Prop := r.payload.length = payloadLength r.header r.payload

/-- Of what follows the header only XWBLK's length depends, and only on the count byte. -/
theorem payloadLength_congr {h : Header} {p q : List Byte} (hd : (headerOp h).toNat = 12 → p.headD 0 = q.headD 0) :
    payloadLength h p = payloadLength h q := by
  unfold payloadLength
  split
  case h_5 h12 => rw [hd h12]
  all_goals rfl

theorem payloadLength_pos {h : Header} (h12 : (headerOp h).toNat = 12) (p : List Byte) : 0 < payloadLength h p := by
  simp only [payloadLength, h12]; omega

/-- The bytes after a framed payload do not change its length. -/
theorem payloadLength_append {h : Header} {p : List Byte} (hp : p.length = payloadLength h p) (rest : List Byte) :
    payloadLength h (p ++ rest) = p.length := by
  rw [hp]
  refine payloadLength_congr fun h12 => ?_
  have hpos := payloadLength_pos h12 p
  cases p with
  | nil => simp [← hp] at hpos
  | cons l d => rfl

/-- The bytes that a stream's length takes off it are a framed payload. -/
theorem payloadLength_take (h : Header) (bs : List Byte) :
    payloadLength h (bs.take (payloadLength h bs)) = payloadLength h bs := by
  refine payloadLength_congr fun h12 => ?_
  obtain ⟨n, hn⟩ := Nat.exists_eq_succ_of_ne_zero (payloadLength_pos h12 bs).ne'
  rw [hn]
  cases bs <;> rfl

theorem payloadLength_reserved {h : Header} (hop : 16 ≤ (headerOp h).toNat) (p : List Byte) :
    payloadLength h p = 0 := by
  unfold payloadLength
  split <;> omega

/-- An instruction is framed where the request that carries it is. -/
theorem framed_iff_payloadFramed (i : Instr) : i.framed = true ↔ PayloadFramed (encodeRequest i) := by
  refine ⟨Laws.Carries.framed_length i, fun h => ?_⟩
  unfold PayloadFramed at h
  cases i with
  | xwblk a b p =>
    cases p with
    | nil => simp [payloadLength, encodeRequest, instrOp] at h
    | cons l d =>
      have hcount : d.length + 1 = 1 + l.toNat := by simpa [payloadLength, encodeRequest, instrOp] using h
      simp only [Instr.framed, countedPayload, beq_iff_eq]
      omega
  | reserved op a b => rfl
  | _ => simpa [payloadLength, encodeRequest, instrOp, Instr.framed] using h

/-- The header comes back whole: OP from the constructor, A and B from its arguments. -/
theorem header_encodeRequest_decodeRequest (r : Request) : (encodeRequest (decodeRequest r)).header = r.header := by
  have hop := instrOp_decodeRequest r
  have hfields : (encodeRequest (decodeRequest r)).header =
      makeHeader (instrOp (decodeRequest r)) (headerA r.header) (headerB r.header) := by
    unfold decodeRequest
    dsimp only
    split <;> rfl
  rw [hfields, hop, makeHeader_fields]

/-- The payload comes back too: only a reserved OP drops it, and there it is framed only if empty. -/
theorem payload_encodeRequest_decodeRequest {r : Request} (hr : PayloadFramed r) :
    (encodeRequest (decodeRequest r)).payload = r.payload := by
  unfold decodeRequest
  dsimp only
  split
  case h_17 =>
    have h16 : 16 ≤ (headerOp r.header).toNat := by simp only [imp_false] at *; omega
    exact (List.length_eq_zero_iff.1 (hr.trans (payloadLength_reserved h16 _))).symm
  all_goals rfl

theorem encodeRequest_decodeRequest {r : Request} (hr : PayloadFramed r) : encodeRequest (decodeRequest r) = r :=
  congrArg₂ Request.mk (header_encodeRequest_decodeRequest r) (payload_encodeRequest_decodeRequest hr)

/-- The bytes of a request whose header is given by its two bytes. -/
theorem requestBytes_of_headerBytes (hi lo : Byte) (p : List Byte) : requestBytes ⟨hi ++ lo, p⟩ = hi :: lo :: p := by
  rw [requestBytes, BitVec.extractLsb'_append_eq_left, BitVec.extractLsb'_append_eq_right]

/-- What the byte-serial decoder reads: a framed request's bytes, all of them and no more. -/
theorem decodeBytes_eq_ok_iff {bs rest : List Byte} {i : Instr} :
    decodeBytes bs = .ok (i, rest) ↔ ∃ r, PayloadFramed r ∧ requestBytes r ++ rest = bs ∧ decodeRequest r = i := by
  constructor
  · intro hdec
    match bs with
    | [] | [_] => cases hdec
    | hi :: lo :: tail =>
      simp only [decodeBytes] at hdec
      split at hdec
      next hlen =>
        simp only [Except.ok.injEq, Prod.mk.injEq] at hdec
        obtain ⟨hinstr, rfl⟩ := hdec
        refine ⟨⟨hi ++ lo, tail.take (payloadLength (hi ++ lo) tail)⟩, ?_, ?_, hinstr⟩
        · simp [PayloadFramed, payloadLength_take, hlen]
        · simp [requestBytes_of_headerBytes]
      next => cases hdec
  · rintro ⟨r, hr, rfl, rfl⟩
    have hlen := payloadLength_append hr rest
    simp [requestBytes, decodeBytes, header_of_bytes, hlen]

/-- Well-formedness bounds the fields A and B besides the payload's length. -/
theorem framed_of_wellFormed (i : Instr) (h : i.wellFormed = true) : i.framed = true := by
  cases i <;> simp_all [Instr.wellFormed, Instr.framed]

/-- Settles O1: a framed instruction is carried by a framed request, whose bytes the decoder reads. -/
theorem decodeOfEncodedBytes : Obligations.DecodeOfEncodedBytes :=
  ⟨framed_of_wellFormed, fun i _ hi => decodeBytes_eq_ok_iff.2
    ⟨encodeRequest i, (framed_iff_payloadFramed i).1 hi, rfl, decodeRequest_encodeRequest i⟩⟩

/-- Settles O2: the request that was read is the one that carries the answered instruction. -/
theorem encodeOfDecodedBytes : Obligations.EncodeOfDecodedBytes := by
  intro bs rest i hdec
  obtain ⟨r, hr, rfl, rfl⟩ := decodeBytes_eq_ok_iff.1 hdec
  have hreq := encodeRequest_decodeRequest hr
  exact ⟨(framed_iff_payloadFramed _).2 (by rwa [hreq]), by rw [encode, hreq]⟩

/-- Settles O3, by running the decoder on each word. -/
theorem opcodeWordsDecode : Obligations.OpcodeWordsDecode := by
  unfold Obligations.OpcodeWordsDecode
  decide

end Sys2Proof
end

section
/-! PROOFS. The line bases (30_encoding.md R96): the four lines of a table, and the three tables. -/

namespace Sys2Proof.Machine

theorem lineBaseAt_lines (c : Config) : [1, 2, 3, 4].map (lineBaseAt c) =
    [some (lineBaseTable c).line1, some (lineBaseTable c).line2, some (lineBaseTable c).line3,
      some (lineBaseTable c).line4] := rfl

theorem lineBaseTable_of_some {c : Config} {t : LineBase} (h : c.lineBase = some t) : lineBaseTable c = t := by
  simp [lineBaseTable, h]

theorem lineBaseTable_of_none {c : Config} (h : c.lineBase = none) :
    lineBaseTable c = if c.numCols = 16 then ⟨0x80, 0xC0, 0x90, 0xD0⟩ else ⟨0x80, 0xC0, 0x94, 0xD4⟩ := by
  simp [lineBaseTable, h]

/-- Settles O36: lines 1 to 4 are the four entries of the table in force, which LINE_BASE or NUM_COLS selects. -/
theorem addressCommands : Obligations.AddressCommands := by
  refine ⟨fun c hnone hcols => ?_, fun c hnone hcols => ?_, fun c t hsome => ?_, fun _ => rfl, by decide⟩
  · rw [lineBaseAt_lines, lineBaseTable_of_none hnone, hcols]; rfl
  · rw [lineBaseAt_lines, lineBaseTable_of_none hnone, hcols]; rfl
  · rw [lineBaseAt_lines, lineBaseTable_of_some hsome]

end Sys2Proof.Machine
end

section
/-! PROOFS. The requests that expose the primitives are taken (40_protocol_primitives.md R125 to R127). -/

namespace Sys2Proof.Machine

/-- In a READY block with an address, a request with legal operands and a plan to run is taken (41_sequencer.md R140,
60_exceptions.md R208). -/
theorem exec_of_ready {i : Instr} {s : State} (haddr : s.addrOk = true) (hready : s.pstate = .ready)
    (hres : isReserved i = false) (hlegal : legalOperands s.cfg i = true)
    (hplan : requestPlan s.cfg (newBacklight i s.bl) i ≠ []) : exec i s = .next (accepted i s) := by
  have hok : acceptCheck i s = .ok := (acceptCheck_ok_iff i s).2 ⟨hres, hlegal, fun _ => haddr, fun _ => hready⟩
  rw [exec_eq]
  exact takeRequest_runs hok hplan

/-- B is the low byte of a header (30_encoding.md R90). -/
theorem makeHeader_eq_add (op : BitVec 5) (a : BitVec 3) (b : Byte) :
    makeHeader op a b = makeHeader op a 0 + b.setWidth 16 := by
  have h (b : Byte) : (makeHeader op a b).toNat = 2 ^ 8 * (op ++ a).toNat + b.toNat := by
    obtain ⟨hdiv, hmod⟩ := toNat_append_div_mod (op ++ a) b
    rw [← hdiv, ← hmod]
    exact (Nat.div_add_mod _ _).symm
  have h0 := h 0
  have hb := h b
  have := (op ++ a).isLt
  bv_omega

/-- Settles O21: both pass their check, and their plan is the byte's four items. -/
theorem byteWritesTaken : Obligations.ByteWritesTaken := by
  intro s b haddr hready
  have hcmd : encodeRequest (.wcmd 0 b []) = ⟨0x0800 + b.setWidth 16, []⟩ :=
    congrArg (Request.mk · []) (makeHeader_eq_add 1 0 b)
  have hdata : encodeRequest (.wdata 0 b []) = ⟨0x1000 + b.setWidth 16, []⟩ :=
    congrArg (Request.mk · []) (makeHeader_eq_add 2 0 b)
  rw [← hcmd, ← hdata]
  exact ⟨exec_of_ready haddr hready rfl rfl (List.cons_ne_nil _ _),
    exec_of_ready haddr hready rfl rfl (List.cons_ne_nil _ _)⟩

theorem lowNibble_setWidth (d : Nibble) : lowNibble (d.setWidth 8) = d := by
  refine BitVec.eq_of_toNat_eq ?_
  simpa [lowNibble] using d.isLt

theorem legalOperands_nibble (c : Config) (rs : Bool) (d : Nibble) :
    legalOperands c (.nibble (if rs then 1 else 0) (d.setWidth 8) []) = true := by
  have hd : (d.setWidth 8 : Byte).extractLsb' 4 4 = 0 := by
    ext i hi
    simp
  cases rs <;> simp [legalOperands, hd]

/-- Settles O22: A[0] is the select and B[3:0] the nibble of the two items. -/
theorem nibbleTaken : Obligations.NibbleTaken := by
  intro s rs d haddr hready
  have hreq : encodeRequest (.nibble (if rs then 1 else 0) (d.setWidth 8) []) =
      ⟨0x1800 + (if rs then 0x100 else 0) + d.setWidth 16, []⟩ := by
    have hB : (d.setWidth 8).setWidth 16 = d.setWidth 16 := by bv_omega
    rw [← hB]
    cases rs with
    | false => exact congrArg (Request.mk · []) (makeHeader_eq_add 3 0 _)
    | true => exact congrArg (Request.mk · []) (makeHeader_eq_add 3 1 _)
  have hplan : nibItems s.cfg s.bl d rs 0 none =
      requestPlan s.cfg s.bl (.nibble (if rs then 1 else 0) (d.setWidth 8) []) := by
    rw [requestPlan, lowNibble_setWidth]
    cases rs <;> rfl
  rw [← hreq, hplan]
  exact exec_of_ready haddr hready rfl (legalOperands_nibble s.cfg rs d) (List.cons_ne_nil _ _)

end Sys2Proof.Machine
end

section
/-! PROOFS. The items of the protocol requests' plans (40_protocol_primitives.md R121, R122, R128, R129): the bytes of a
full-byte write, and what every expander byte of a plan carries. -/

namespace Sys2Proof.Machine

/-! ### The full-byte write -/

/-- The high nibble stands where the expander drives the data lines (30_encoding.md R92, R98). -/
theorem highNibble_dataLines (b : Byte) : (highNibble b).setWidth 8 <<< 4 = b &&& 0xF0 := by
  revert b; decide

theorem lowNibble_dataLines (b : Byte) : (lowNibble b).setWidth 8 <<< 4 = (b <<< 4) &&& 0xF0 := by
  revert b; decide

/-- The commands that R122 lets wait longer: clear display and both codes of return home. -/
theorem longWait_eq (c : Config) (b : Byte) (rs : Bool) :
    longWait c b rs = if rs = false ∧ (b = 1 ∨ b = 2 ∨ b = 3) then c.tLongCmd else 0 := by
  have hhome : b &&& 0xFE = 0x02 ↔ b = 2 ∨ b = 3 := by revert b; decide
  simp only [longWait, hhome]

/-- An expander byte is its data lines and its control bits (30_encoding.md R93). -/
theorem expByte_eq_or (c : Config) (d : Nibble) (rs en bl : Bool) :
    expByte c d rs en bl = (d.setWidth 8 <<< 4) ||| (bitAt c.pRs rs ||| bitAt c.pEn en ||| bitAt c.pBl bl) := by
  simp only [expByte, BitVec.or_assoc]

/-- Settles O31, from the data lines of the two nibbles. -/
theorem byteWriteItems : Obligations.ByteWriteItems := by
  refine ⟨fun _ _ _ _ _ => rfl, ?_, fun b =>
    ⟨(highNibble_dataLines b).symm, (lowNibble_dataLines b).symm, highNibble_append_lowNibble b⟩⟩
  rintro c bl rs b c1 c0 rfl rfl
  have hlow : bitAt c.pRs rs ||| bitAt c.pEn false ||| bitAt c.pBl bl = bitAt c.pRs rs ||| bitAt c.pBl bl := by
    simp [bitAt]
  simp only [byteItems, byteItemsWith, nibItems, expByte_eq_or, highNibble_dataLines, lowNibble_dataLines, longWait_eq,
    hlow]
  rfl

/-! ### Every item of a protocol request -/

/-- Every item of the list belongs to a nibble write (R121). -/
def NibbleWrites (c : Config) (bl : Bool) (l : List Item) : Prop :=
  ∀ it ∈ l, ∃ d rs extra done, it ∈ nibItems c bl d rs extra done

section
variable {c : Config} {bl : Bool}

theorem NibbleWrites.append {l m : List Item} (hl : NibbleWrites c bl l) (hm : NibbleWrites c bl m) :
    NibbleWrites c bl (l ++ m) := fun it h => (List.mem_append.1 h).elim (hl it) (hm it)

theorem nibbleWrites_nil : NibbleWrites c bl [] := fun _ h => nomatch h

theorem nibbleWrites_nib (d : Nibble) (rs : Bool) (extra : Nat) (done : Option (Byte × Bool)) :
    NibbleWrites c bl (nibItems c bl d rs extra done) := fun _ h => ⟨d, rs, extra, done, h⟩

theorem nibbleWrites_byteWith (b : Byte) (rs : Bool) (extra : Nat) :
    NibbleWrites c bl (byteItemsWith c bl b rs extra) :=
  (nibbleWrites_nib _ _ _ _).append (nibbleWrites_nib _ _ _ _)

theorem nibbleWrites_text (t : List Byte) : NibbleWrites c bl (textItems c bl t) := by
  induction t with
  | nil => exact nibbleWrites_nil
  | cons x t ih => exact (nibbleWrites_byteWith _ _ _).append ih

theorem nibbleWrites_line (k : BitVec 3) : NibbleWrites c bl (lineItems c bl k) := by
  unfold lineItems
  split
  · exact nibbleWrites_byteWith _ _ _
  · exact nibbleWrites_nil

theorem nibbleWrites_init : NibbleWrites c bl (initPlan c bl) := by
  unfold initPlan
  repeat' apply NibbleWrites.append
  all_goals exact nibbleWrites_nib _ _ _ _

theorem nibbleWrites_glyph (p : List Byte) : NibbleWrites c bl (glyphPlan c bl p) := by
  intro it h
  obtain ⟨slot, -, h⟩ := List.mem_flatMap.1 h
  exact (nibbleWrites_byteWith _ _ _).append (nibbleWrites_text _) it h

/-- The plan of INIT or of a protocol request is nibble writes, but for BKL's one item. -/
theorem nibbleWrites_or_backlightPlan {i : Instr} (hi : needsReady i = true ∨ isInit i = true) :
    NibbleWrites c bl (requestPlan c bl i) ∨ requestPlan c bl i = backlightPlan c bl := by
  cases i with
  | init a b p => exact .inl nibbleWrites_init
  | wcmd a b p | wdata a b p => exact .inl (nibbleWrites_byteWith _ _ _)
  | nibble a b p => exact .inl (nibbleWrites_nib _ _ _ _)
  | setline a b p => exact .inl (nibbleWrites_line _)
  | wline a b p | wext a b p => exact .inl ((nibbleWrites_line _).append (nibbleWrites_text _))
  | bkl a b p => exact .inr rfl
  | ldglyph a b p => exact .inl (nibbleWrites_glyph _)
  | _ => simp [needsReady, isInit] at hi

end

theorem expByte_backlight {c : Config} (hc : controlBitsLegal c = true) (d : Nibble) (rs en bl : Bool) :
    (expByte c d rs en bl).getLsbD c.pBl = bl := by
  simp only [controlBitsLegal, decide_eq_true_eq] at hc
  obtain ⟨-, -, -, hBl, hne⟩ := hc
  simp only [expByte_getLsbD_of_lt, hBl]
  grind

/-- BKL's byte is an expander byte with no data and no other control bit (41_sequencer.md R150). -/
theorem bitAt_pBl_eq_expByte (c : Config) (bl : Bool) : bitAt c.pBl bl = expByte c 0 false false bl := by
  simp [expByte, bitAt]

theorem nibItems_bytes {c : Config} {bl : Bool} {d : Nibble} {rs : Bool} {extra : Nat} {done : Option (Byte × Bool)}
    {it : Item} (h : it ∈ nibItems c bl d rs extra done) : ∃ en, it.bytes = [expByte c d rs en bl] := by
  simp only [nibItems, List.mem_cons, List.not_mem_nil, or_false] at h
  obtain rfl | rfl := h
  · exact ⟨true, rfl⟩
  · exact ⟨false, rfl⟩

/-- Settles O32: every item writes one expander byte (30_encoding.md R93). -/
theorem backlightOnEveryByte : Obligations.BacklightOnEveryByte := by
  intro c bl i hlegal hi it hit
  have hc : controlBitsLegal c = true := by simp_all [configLegal]
  obtain ⟨d, rs, en, hbytes⟩ : ∃ d rs en, it.bytes = [expByte c d rs en bl] := by
    obtain hnib | hbl := nibbleWrites_or_backlightPlan (c := c) (bl := bl) hi
    · obtain ⟨d, rs, extra, done, h⟩ := hnib it hit
      exact ⟨d, rs, nibItems_bytes h⟩
    · rw [hbl, backlightPlan, List.mem_singleton] at hit
      exact ⟨0, false, false, by rw [hit, bitAt_pBl_eq_expByte]⟩
  obtain ⟨-, hrw, -⟩ := expByte_control hc d rs en bl
  exact ⟨_, hbytes, expByte_backlight hc d rs en bl, hrw⟩

end Sys2Proof.Machine
end

section
/-! PROOFS. The command snoop (40_protocol_primitives.md R123). -/

namespace Sys2Proof.Machine

/-- A bit inside a known field is the field's bit. -/
theorem getLsbD_of_extractLsb'_eq {w start len : Nat} {b : BitVec w} {v : BitVec len}
    (h : b.extractLsb' start len = v) {i : Nat} (hlo : start ≤ i) (hhi : i < start + len) :
    b.getLsbD i = v.getLsbD (i - start) := by
  rw [← h, BitVec.getLsbD_extractLsb', Nat.add_sub_cancel' hlo, decide_eq_true (by omega), Bool.true_and]

/-- Settles O43: the field of each case fixes the bits down to its leading one, which select the branch. -/
theorem snoopCases : Obligations.SnoopCases := by
  intro b s
  have hdesync : (s.desync || b.getLsbD 4) = if b.getLsbD 4 then true else s.desync := by
    cases b.getLsbD 4 <;> simp
  refine ⟨?ddAddress, ?cgAddress, ?function, ?shift, ?control, ?entry, ?home, ?clear, ?nothing, ?items⟩
  case clear => rintro rfl; rfl
  case nothing => rintro rfl; rfl
  case items =>
    exact fun it => ⟨fun h => by rw [snoopItem, h], fun h => by rw [snoopItem, h], fun h => by rw [snoopItem, h]⟩
  all_goals
    intro h
    simp only [snoop, getLsbD_of_extractLsb'_eq h, hdesync, Nat.reduceLeDiff, Nat.reduceAdd, Nat.reduceLT, Nat.reduceSub,
      BitVec.reduceGetLsb, ↓reduceIte, Bool.false_eq_true]

end Sys2Proof.Machine
end

section
/-! PROOFS. The least time of a plan (40_protocol_primitives.md R131, 70_reset_and_hazards.md R247), built up as the plan
is: nibbles, bytes, texts and lines. -/

namespace Sys2Proof.Machine

/-- The gaps of a nibble write with no extra wait (R121). -/
def nibbleTime (c : Config) : Nat := 2 * c.tSettle + c.tEnHigh + c.tEnLow

/-- The gaps of a full-byte write with no extra wait (R131). -/
def byteTime (c : Config) : Nat := 2 * nibbleTime c

section
variable (c : Config) (bl rs : Bool)

@[simp] theorem planTime_append (l m : List Item) : planTime (l ++ m) = planTime l + planTime m := by
  simp [planTime]

@[simp] theorem planTime_nibItems (d : Nibble) (extra : Nat) (done : Option (Byte × Bool)) :
    planTime (nibItems c bl d rs extra done) = nibbleTime c + extra := by
  simp only [planTime, nibItems, nibbleTime, List.map_cons, List.map_nil, List.sum_cons, List.sum_nil]
  omega

@[simp] theorem planTime_byteItemsWith (b : Byte) (extra : Nat) :
    planTime (byteItemsWith c bl b rs extra) = byteTime c + longWait c b rs + extra := by
  simp only [byteItemsWith, byteTime, planTime_append, planTime_nibItems]
  omega

@[simp] theorem planTime_byteItems (b : Byte) : planTime (byteItems c bl b rs) = byteTime c + longWait c b rs :=
  planTime_byteItemsWith c bl rs b 0

@[simp] theorem longWait_data (b : Byte) : longWait c b true = 0 := by
  simp [longWait]

@[simp] theorem planTime_textItems (t : List Byte) : planTime (textItems c bl t) = byteTime c * t.length := by
  induction t with
  | nil => simp [textItems, planTime]
  | cons x t ih =>
    simp only [textItems, planTime_append, planTime_byteItems, longWait_data, ih, List.length_cons]
    ring

theorem planTime_initPlan : planTime (initPlan c bl) =
    4 * nibbleTime c + 4 * byteTime c + c.tSync1 + longWait c 0x01 false + c.tInit := by
  have h28 : longWait c 0x28 false = 0 := if_neg (by decide)
  have h0C : longWait c 0x0C false = 0 := if_neg (by decide)
  have h06 : longWait c 0x06 false = 0 := if_neg (by decide)
  simp only [initPlan, planTime_append, planTime_nibItems, planTime_byteItems, planTime_byteItemsWith, h28, h0C, h06]
  ring

/-- Each slot sends its command and 8 rows (42_cgram.md R171). -/
theorem byteTime_le_planTime_slotItems (p : List Byte) (slot : Nat) :
    9 * byteTime c ≤ planTime (slotItems c bl p slot) := by
  simp only [slotItems, glyphRows, planTime_append, planTime_byteItems, planTime_textItems, List.length_map,
    List.length_range]
  omega

/-- Parts that take `n` or more each. -/
theorem le_planTime_flatMap {α : Type} {f : α → List Item} {n : Nat} (h : ∀ x, n ≤ planTime (f x)) (l : List α) :
    n * l.length ≤ planTime (l.flatMap f) := by
  induction l with
  | nil => simp
  | cons x l ih =>
    rw [List.flatMap_cons, planTime_append, List.length_cons, Nat.mul_succ, Nat.add_comm]
    exact Nat.add_le_add (h x) ih

theorem byteTime_le_planTime_glyphPlan (p : List Byte) : 9 * byteTime c * 8 ≤ planTime (glyphPlan c bl p) :=
  le_planTime_flatMap (byteTime_le_planTime_slotItems c bl p) (List.range 8)

end

/-! ### Lines -/

theorem numLines_le_four {c : Config} (h : configLegal c = true) : c.numLines ≤ 4 := by
  simp only [configLegal, Bool.and_eq_true, Bool.or_eq_true, beq_iff_eq] at h
  obtain ⟨⟨⟨⟨-, hlines⟩, -⟩, -⟩, -⟩ := h
  omega

/-- Each of the lines 1 to 4 has a base (30_encoding.md R96). -/
theorem exists_lineBaseAt (c : Config) {k : Nat} (h1 : 1 ≤ k) (h4 : k ≤ 4) : ∃ base, lineBaseAt c k = some base := by
  interval_cases k <;> exact ⟨_, rfl⟩

theorem byteTime_le_planTime_lineItems {c : Config} (bl : Bool) {k : BitVec 3} (hlegal : configLegal c = true)
    (hk : k.toNat ≤ c.numLines) : byteTime c * (if k = 0 then 0 else 1) ≤ planTime (lineItems c bl k) := by
  split
  · simp
  next hne =>
    have h1 : 1 ≤ k.toNat := by bv_omega
    obtain ⟨base, hbase⟩ := exists_lineBaseAt c h1 (hk.trans (numLines_le_four hlegal))
    simp [lineItems, hbase]

/-- A line and a text take a byte each for the line's address and the text's bytes (41_sequencer.md R147, R149). -/
theorem byteTime_le_planTime_line_text {c : Config} (bl : Bool) {k : BitVec 3} (t : List Byte)
    (hlegal : configLegal c = true) (hk : k.toNat ≤ c.numLines) :
    byteTime c * (t.length + if k = 0 then 0 else 1) ≤ planTime (lineItems c bl k ++ textItems c bl t) := by
  rw [planTime_append, planTime_textItems, Nat.mul_add, Nat.add_comm]
  exact Nat.add_le_add_right (byteTime_le_planTime_lineItems bl hlegal hk) _

/-- Settles O38, from the times of the plans' parts: a byte takes 1600 µs with the default waits, above the 1400 that
R131 prints. -/
theorem leastDurations : Obligations.LeastDurations := by
  refine ⟨fun c bl rs b => by rw [planTime_byteItems, byteTime, nibbleTime]; ring, ?_⟩
  rintro c hsettle hhigh hlow hinit hlong hsync hc bl i hi us rfl
  have hnib : nibbleTime c = 800 := by simp [nibbleTime, hsettle, hhigh, hlow]
  have hbyte : byteTime c = 1600 := by simp [byteTime, hnib]
  cases i with
  | init a b p =>
    have hclear : longWait c 0x01 false = 0 := by simp [longWait, hlong]
    exact (planTime_initPlan c bl).trans (by rw [hnib, hbyte, hsync, hinit, hclear])
  | wcmd a b p | wdata a b p =>
    simp only [requestPlan, planTime_byteItems, hbyte]
    omega
  | nibble a b p => simp [requestPlan, hnib]
  | setline a b p =>
    simp only [legalOperands, Bool.and_eq_true, decide_eq_true_eq] at hi
    obtain ⟨⟨⟨h1, hk⟩, -⟩, -⟩ := hi
    have hne : a ≠ 0 := by bv_omega
    have htime := byteTime_le_planTime_lineItems bl hc hk
    rw [if_neg hne, hbyte] at htime
    exact le_trans (by decide) htime
  | wline a b p | wext a b p =>
    simp only [legalOperands, Bool.and_eq_true, decide_eq_true_eq] at hi
    exact (Nat.mul_le_mul_right _ (by omega)).trans (byteTime_le_planTime_line_text bl _ hc hi.1)
  | ldglyph a b p =>
    have htime := byteTime_le_planTime_glyphPlan c bl p
    rw [hbyte] at htime
    exact le_trans (by decide) htime
  | bkl a b p | xwb a b p | xwr a b p | xwblk a b p =>
    simp [requestPlan, planTime, backlightPlan, rawWrite, hsettle]
  | rdstat a b p | xrb a b p | xrr a b p | xrblk a b p | reserved op a b => rfl

end Sys2Proof.Machine
end

section
/-! PROOFS. The extended-string parser (41_sequencer.md R148, 30_encoding.md R99): its hex digits, and one token or one
literal byte at a time. -/

namespace Sys2Proof.Machine

theorem hexval_ne_none {c : Byte} (h : hexval c ≠ none) : (0x30 ≤ c.toNat ∧ c.toNat ≤ 0x39) ∨
    (0x41 ≤ c.toNat ∧ c.toNat ≤ 0x46) ∨ (0x61 ≤ c.toNat ∧ c.toNat ≤ 0x66) := by
  unfold hexval at h
  dsimp only at h
  split_ifs at h with hdigit hupper hlower
  · exact .inl hdigit
  · exact .inr (.inl hupper)
  · exact .inr (.inr hlower)
  · exact absurd rfl h

section
variable {u : Bool} {x d e : Byte}

/-- The byte of a token is the value of its two hex digits. -/
theorem escapeToken_of_digits {h l : Nat} (hx : x = 0x78 ∨ u = true ∧ x = 0x58) (hd : hexval d = some h)
    (he : hexval e = some l) (rest : List Byte) :
    escapeToken u (0x7B :: 0x30 :: x :: d :: e :: 0x7D :: rest) = some (BitVec.ofNat 8 (16 * h + l)) := by
  simp only [escapeToken, hd, he]
  exact if_pos ⟨trivial, trivial, hx, trivial⟩

/-- Where a token stands, its six bytes do. -/
theorem exists_digits_of_escapeToken {p : List Byte} (hp : escapeToken u p ≠ none) :
    ∃ (x d e : Byte) (tail : List Byte), (x = 0x78 ∨ u = true ∧ x = 0x58) ∧ hexval d ≠ none ∧ hexval e ≠ none ∧
      p = 0x7B :: 0x30 :: x :: d :: e :: 0x7D :: tail := by
  unfold escapeToken at hp
  split at hp
  next c0 c1 x d e c5 tail =>
    split_ifs at hp with hframe
    · obtain ⟨rfl, rfl, hx, rfl⟩ := hframe
      split at hp
      next h l hd he => exact ⟨x, d, e, tail, hx, by simp [hd], by simp [he], rfl⟩
      next => exact absurd rfl hp
    · exact absurd rfl hp
  next => exact absurd rfl hp

end

theorem parseText_token {u : Bool} {c0 c1 c2 c3 c4 c5 v : Byte} {rest : List Byte}
    (h : escapeToken u (c0 :: c1 :: c2 :: c3 :: c4 :: c5 :: rest) = some v) :
    parseText u (c0 :: c1 :: c2 :: c3 :: c4 :: c5 :: rest) = v :: parseText u rest := by
  simp only [parseText, parseFrom, h]

theorem parseText_literal {u : Bool} {c : Byte} {rest : List Byte} (h : escapeToken u (c :: rest) = none) :
    parseText u (c :: rest) = c :: parseText u rest := by
  simp only [parseText, parseFrom, h]

theorem parseText_eq_nil_iff {u : Bool} {p : List Byte} : parseText u p = [] ↔ p = [] := by
  cases p with
  | nil => simp [parseText, parseFrom]
  | cons c t => cases h : escapeToken u (c :: t) <;> simp [parseText, parseFrom, h]

/-- Settles O37: a token is answered and its other five bytes are passed over; any other byte stands for itself. -/
theorem parseEquations : Obligations.ParseEquations := by
  refine ⟨⟨by decide, by decide, fun c => hexval_ne_none⟩, fun u p => ⟨?empty, ?token, ?literal⟩⟩
  case empty => exact parseText_eq_nil_iff.2
  case token =>
    rintro x d e h l rest hx hd he rfl
    exact parseText_token (escapeToken_of_digits hx hd he rest)
  case literal =>
    rintro c rest rfl hno
    exact parseText_literal (by_contra fun h => hno (exists_digits_of_escapeToken h))

end Sys2Proof.Machine
end

section
/-! PROOFS. The lengths of the plans, and the items of INIT's (41_sequencer.md R143, R153). -/

namespace Sys2Proof.Machine

theorem lineItems_of_base {c : Config} {k : BitVec 3} {base : Byte} (h : lineBaseAt c k.toNat = some base) (bl : Bool) :
    lineItems c bl k = byteItems c bl base false := by
  simp [lineItems, h]

/-- A line operand that is not 0 addresses its line with one byte. -/
theorem lineItems_length {c : Config} {k : BitVec 3} (hlegal : configLegal c = true) (hk : k.toNat ≤ c.numLines)
    (bl : Bool) : (lineItems c bl k).length = if k = 0 then 0 else 4 := by
  split
  next h0 => rw [h0]; rfl
  next hne =>
    have h1 : 1 ≤ k.toNat := by bv_omega
    obtain ⟨base, hbase⟩ := exists_lineBaseAt c h1 (hk.trans (numLines_le_four hlegal))
    rw [lineItems_of_base hbase, byteItems_length]

theorem glyphPlan_length (c : Config) (bl : Bool) (p : List Byte) : (glyphPlan c bl p).length = 288 := by
  simp [glyphPlan]

/-- Settles O34, from the lengths of the plans' parts. -/
theorem planLengths : Obligations.PlanLengths := by
  intro c bl i hc hi
  refine ⟨?exact, requestPlan_length_le c bl i hi, fun p hp => ?longest⟩
  case longest =>
    have h1 : (lineItems c bl 1).length = 4 := rfl
    rw [requestPlan, List.length_append, h1, textItems_length, hp]
  cases i with
  | setline a b p =>
    simp only [legalOperands, Bool.and_eq_true, decide_eq_true_eq] at hi
    obtain ⟨⟨⟨h1, hk⟩, -⟩, -⟩ := hi
    have hne : a ≠ 0 := by bv_omega
    exact (lineItems_length hc hk bl).trans (if_neg hne)
  | wline a b p =>
    simp only [legalOperands, Bool.and_eq_true, decide_eq_true_eq, beq_iff_eq] at hi
    obtain ⟨hk, hp⟩ := hi
    simp only [requestPlan, List.length_append, lineItems_length hc hk, textItems_length, hp]
  | wext a b p =>
    simp only [legalOperands, Bool.and_eq_true, decide_eq_true_eq] at hi
    obtain ⟨hk, -⟩ := hi
    simp only [requestPlan, List.length_append, lineItems_length hc hk, textItems_length]
  | ldglyph a b p => exact glyphPlan_length c bl p
  | _ => rfl

/-- The wait of INIT's item `n`, from 0 (41_sequencer.md R143). -/
def initGap (c : Config) (n : Nat) : Nat :=
  if n % 2 = 0 then c.tSettle + c.tEnHigh
  else c.tSettle + c.tEnLow + (if n = 1 then c.tSync1 else if n = 19 then c.tLongCmd else if n = 23 then c.tInit else 0)

theorem initPlan_gaps (c : Config) (bl : Bool) : (initPlan c bl).map Item.gap = (List.range 24).map (initGap c) := by
  simp [initPlan, byteItems, byteItemsWith, nibItems, longWait, initGap, List.range_succ]

theorem initPlan_bytes (c : Config) (bl : Bool) : ((initPlan c bl).map Item.bytes).flatten =
    ([0x3, 0x3, 0x3, 0x2] ++ ([0x28, 0x0C, 0x01, 0x06] : List Byte).flatMap
      fun b => [highNibble b, lowNibble b]).flatMap fun d => [expByte c d false true bl, expByte c d false false bl] := by
  simp [initPlan, byteItems, byteItemsWith, nibItems]

/-- Settles O35: the nibbles on the default wiring, and the gaps item by item. -/
theorem initPlanItems : Obligations.InitPlanItems := by
  intro c hRs hRw hEn hBl
  have hexp (d : Nibble) (en bl : Bool) :
      expByte c d false en bl = (d.setWidth 8 <<< 4) ||| bitAt 2 en ||| bitAt 3 bl := by
    simp [expByte, hEn, hBl, bitAt]
  refine ⟨?_, ?_, fun bl n it hit => ?gap⟩
  case gap =>
    have hgap : ((initPlan c bl).map Item.gap)[n]? = some it.gap := by simp [hit]
    rw [initPlan_gaps] at hgap
    obtain ⟨hn, hgap⟩ := List.getElem?_eq_some_iff.1 hgap
    simpa [initGap] using hgap.symm
  all_goals
    refine (initPlan_bytes c _).trans ?_
    simp only [hexp]
    decide

end Sys2Proof.Machine
end

section
/-! PROOFS. Taking a request (41_sequencer.md R140): its frame, and the sequencer's own requests. -/

namespace Sys2Proof.Machine

theorem exists_init_of_isInit {i : Instr} (h : isInit i = true) : ∃ a b p, i = .init a b p := by
  cases i with
  | init a b p => exact ⟨a, b, p, rfl⟩
  | _ => exact absurd h Bool.false_ne_true

theorem exists_nibble_of_isNibble {i : Instr} (h : isNibble i = true) : ∃ a b p, i = .nibble a b p := by
  cases i with
  | nibble a b p => exact ⟨a, b, p, rfl⟩
  | _ => exact absurd h Bool.false_ne_true

/-- Of BL, DESYNC and PSTATE a passed check writes each for one request only. -/
theorem accepted_owners (i : Instr) (s : State) :
    ((accepted i s).bl ≠ s.bl → ∃ a b p, i = .bkl a b p) ∧
      ((accepted i s).desync ≠ s.desync → ∃ a b p, i = .nibble a b p) ∧
      ((accepted i s).pstate ≠ s.pstate → ∃ a b p, i = .init a b p) := by
  refine ⟨fun hne => ?bl, fun hne => ?desync, fun hne => ?pstate⟩
  case bl =>
    obtain ⟨a, b, p, hi, -⟩ := bkl_of_newBacklight_ne hne
    exact ⟨a, b, p, hi⟩
  case desync => exact exists_nibble_of_isNibble (by_contra fun hn => hne (by simp [hn]))
  case pstate => exact exists_init_of_isInit (by_contra fun hn => hne (by simp [hn]))

/-- Settles O19, by the three ways a request is taken: `accepted`, then perhaps `endRequest`, or `raiseError` alone. -/
theorem acceptanceFrame : Obligations.AcceptanceFrame := by
  intro i s
  obtain ⟨-, -, he⟩ | ⟨-, -, he⟩ | ⟨-, he⟩ := exec_cases i s
  · exact ⟨_, he, rfl, accepted_owners i s⟩
  · exact ⟨_, he, rfl, accepted_owners i s⟩
  · exact ⟨_, he, rfl, absurd rfl, absurd rfl, absurd rfl⟩

/-- What a request that passes its check leads to: its plan to run, or with an empty one its response (R142). -/
theorem exec_of_check {i : Instr} {s : State} (hok : acceptCheck i s = .ok) (ha : s.aborting = false) :
    exec i s = .next (if (accepted i s).plan = [] then
        { accepted i s with
          busy := false, lastErr := .ok, responses := s.responses ++ [⟨.ok, answerAtOnce i s⟩],
          aborting := s.aborting }
      else accepted i s) := by
  obtain ⟨-, hplan, he⟩ | ⟨-, hplan, he⟩ | ⟨herr, -⟩ := exec_cases i s
  · rw [he, if_neg hplan]
  · rw [he, if_pos hplan, ha]
    rfl
  · exact absurd hok herr

/-- Settles O20: INIT needs an address and no PSTATE. -/
theorem initTaken : Obligations.InitTaken := by
  intro s haddr
  have hok : acceptCheck (.init 0 0 []) s = .ok := (acceptCheck_ok_iff _ s).2 ⟨rfl, rfl, fun _ => haddr, nofun⟩
  rw [exec_eq]
  exact takeRequest_runs hok (List.cons_ne_nil _ _)

/-- Settles O23: every line has a base, and SETLINE's plan is the byte write of it. -/
theorem setlineTaken : Obligations.SetlineTaken := by
  intro s k hc h1 hk haddr hready
  obtain ⟨base, hbase⟩ := exists_lineBaseAt s.cfg h1 (hk.trans (numLines_le_four hc))
  have hplan := lineItems_of_base hbase s.bl
  have hlegal : legalOperands s.cfg (.setline k 0 []) = true := by simp [legalOperands, h1, hk]
  have hne : lineItems s.cfg s.bl k ≠ [] := hplan ▸ List.cons_ne_nil _ _
  exact ⟨base, hbase, hplan ▸ exec_of_ready haddr hready rfl hlegal hne⟩

/-- Settles O26: each mode stores its flag before the plan is built. -/
theorem bklTaken : Obligations.BklTaken := by
  rintro s m bl haddr hready (⟨rfl, rfl⟩ | ⟨rfl, rfl⟩ | ⟨rfl, rfl⟩)
  all_goals exact exec_of_ready haddr hready rfl rfl (List.cons_ne_nil _ _)

/-- Settles O28: RDSTAT passes its check in every state, and its plan is empty. -/
theorem rdstatAnswers : Obligations.RdstatAnswers := by
  intro s hidle ha
  have hok : acceptCheck (.rdstat 0 0 []) s = .ok := (acceptCheck_ok_iff _ s).2 ⟨rfl, rfl, nofun, nofun⟩
  rw [exec_of_check hok ha, if_pos (show (accepted (.rdstat 0 0 []) s).plan = [] from rfl), ← hidle]
  rfl

/-! ### A line and a text -/

theorem textItems_eq_flatten (c : Config) (bl : Bool) (t : List Byte) :
    textItems c bl t = (t.map fun x => byteItems c bl x true).flatten := by
  induction t with
  | nil => rfl
  | cons x t ih => rw [textItems, ih]; rfl

/-- There is nothing to send exactly with no line and no text (41_sequencer.md R147). -/
theorem line_text_eq_nil_iff {c : Config} {k : BitVec 3} (hlegal : configLegal c = true) (hk : k.toNat ≤ c.numLines)
    (bl : Bool) (t : List Byte) : lineItems c bl k ++ textItems c bl t = [] ↔ k = 0 ∧ t = [] := by
  rw [← List.length_eq_zero_iff, List.length_append, lineItems_length hlegal hk, textItems_length,
    ← List.length_eq_zero_iff (l := t)]
  split <;> simp_all

/-- A request that may run and whose plan is a line and a text `t`: with neither it responds at once. -/
theorem exec_line_text {i : Instr} {s : State} {k : BitVec 3} {t : List Byte} (hc : configLegal s.cfg = true)
    (hk : k.toNat ≤ s.cfg.numLines) (hok : acceptCheck i s = .ok) (ha : s.aborting = false)
    (hplan : (accepted i s).plan = lineItems s.cfg s.bl k ++ textItems s.cfg s.bl t) : exec i s = .next
      (if k = 0 ∧ t = [] then
        { accepted i s with
          plan := [], busy := false, lastErr := .ok, responses := s.responses ++ [⟨.ok, answerAtOnce i s⟩],
          aborting := s.aborting }
      else
        { accepted i s with
          plan := lineItems s.cfg s.bl k ++ (t.map fun x => byteItems s.cfg s.bl x true).flatten }) := by
  have hnil : (accepted i s).plan = [] ↔ k = 0 ∧ t = [] := hplan ▸ line_text_eq_nil_iff hc hk s.bl t
  rw [exec_of_check hok ha, if_congr hnil rfl rfl, ← textItems_eq_flatten, ← hplan]
  split_ifs with h
  · rw [← hnil.2 h]
  · rfl

/-- Settles O24: the plan is empty exactly with nothing to send. -/
theorem wlineTaken : Obligations.WlineTaken := by
  intro s k n p hc hk hp haddr hready ha
  have hok : acceptCheck (.wline k n p) s = .ok :=
    (acceptCheck_ok_iff _ s).2 ⟨rfl, by simp [legalOperands, hk, hp], fun _ => haddr, fun _ => hready⟩
  exact exec_line_text hc hk hok ha rfl

/-- Settles O25: as WLINE, the parse of a text being empty only where the text is. -/
theorem wextTaken : Obligations.WextTaken := by
  intro s k n p hc hk hp haddr hready ha
  have hok : acceptCheck (.wext k n p) s = .ok :=
    (acceptCheck_ok_iff _ s).2 ⟨rfl, by simp [legalOperands, hk, hp], fun _ => haddr, fun _ => hready⟩
  exact (exec_line_text hc hk hok ha rfl).trans
    (congrArg Host.Outcome.next (if_congr (and_congr_right' parseText_eq_nil_iff) rfl rfl))

end Sys2Proof.Machine
end

section
/-! PROOFS. A step (41_sequencer.md R140): taking the next request, holding the port, and that every step answers. -/

namespace Sys2Proof.Machine

theorem fetchRequest_of_port {s : State} {r : Request} {rest : List Request} (h : s.port = r :: rest) :
    fetchRequest s = some (decodeRequest r, { s with port := rest }) := by
  simp [fetchRequest, h]

theorem fetchRequest_of_rx {s : State} {i : Instr} {rest : List Byte} (hport : s.port = [])
    (h : decodeBytes s.rx = .ok (i, rest)) : fetchRequest s = some (i, { s with rx := rest }) := by
  simp [fetchRequest, hport, h]

theorem fetchRequest_eq_none {s : State} (hport : s.port = []) (h : ∀ i rest, decodeBytes s.rx ≠ .ok (i, rest)) :
    fetchRequest s = none := by
  cases hd : decodeBytes s.rx with
  | ok ir => exact absurd hd (h _ _)
  | error e => simp [fetchRequest, hport, hd]

section
variable {s : State} (hc : configLegal s.cfg = true) (hr : s.rst = false)
include hc hr

theorem step_of_takes {i : Instr} {u : State} (hb : s.busy = false) (hf : fetchRequest s = some (i, u)) :
    step s = exec i u := by
  simp [step, hc, hr, hb, hf]

theorem step_of_waiting (hb : s.busy = false) (hf : fetchRequest s = none) : step s = .next (idleStep s) := by
  simp [step, hc, hr, hb, hf]

theorem step_of_busy (hb : s.busy = true) : step s = runStep s := by
  simp [step, hc, hr, hb]

end

/-- Settles O4: an idle block's step is exec of what it fetches. -/
theorem stepRunsDecodedRequest : Obligations.StepRunsDecodedRequest :=
  ⟨fun _ _ _ hc hr hb hport => step_of_takes hc hr hb (fetchRequest_of_port hport),
    fun _ _ _ hc hr hb hport hrx => step_of_takes hc hr hb (fetchRequest_of_rx hport hrx)⟩

/-- Settles O5, by the cases of a step: none that runs a request touches the port. -/
theorem portIsHeld : Obligations.PortIsHeld := by
  refine ⟨fun s t hr hb hst => ?busy, fun s hc hr hb hport hrx =>
    step_of_waiting hc hr hb (fetchRequest_eq_none hport hrx)⟩
  cases stepTo_of_step hst with
  | reset hreset => exact absurd (hr.symm.trans hreset) Bool.false_ne_true
  | accept hu hok hplan | answer hu hok hplan | refuse hu herr =>
    exact absurd (hu.2.1.symm.trans hb) Bool.false_ne_true
  | idle hr' hb' hnone => exact absurd (hb'.symm.trans hb) Bool.false_ne_true
  | _ => simp

/-- A busy block that holds its request runs on. -/
theorem runStep_next {s : State} {r : Request} (hreq : s.req = some r) : ∃ t, runStep s = .next t := by
  unfold runStep
  rw [hreq]
  dsimp only
  split
  · exact ⟨_, rfl⟩
  · split_ifs
    · exact ⟨_, rfl⟩
    · exact ⟨_, rfl⟩
    · split
      · exact ⟨_, rfl⟩
      · exact ⟨_, rfl⟩

/-- Settles O8: the one fault is a busy block without a request, which the invariant excludes. -/
theorem invStepsAnswer : Obligations.InvStepsAnswer := by
  intro s h hc
  cases hr : s.rst with
  | true => exact ⟨applyReset s, by simp [step, hc, hr]⟩
  | false =>
    cases hb : s.busy with
    | true =>
      obtain ⟨r, hreq, -⟩ := h.running hb
      rw [step_of_busy hc hr hb]
      exact runStep_next hreq
    | false =>
      cases hf : fetchRequest s with
      | none => exact ⟨_, step_of_waiting hc hr hb hf⟩
      | some iu =>
        rw [step_of_takes hc hr hb hf]
        exact exec_next iu.1 iu.2

end Sys2Proof.Machine
end

section
/-! PROOFS. The end of a transaction (41_sequencer.md R141): every field after one that completes and one that fails. -/

namespace Sys2Proof.Machine

theorem itemOp_of_write {it : Item} (hk : it.kind ≠ .rawr) (c : Config) (i : Instr) :
    itemOp c i it = .write it.bytes := by
  unfold itemOp
  cases h : it.kind with
  | rawr => exact absurd h hk
  | _ => rfl

theorem itemOp_of_read {it : Item} (hk : it.kind = .rawr) (c : Config) (i : Instr) :
    itemOp c i it = .read it.bytes (readLength c i) := by
  simp [itemOp, hk]

/-- A read that sends nothing leaves the display, one that sends a byte leaves it unknown (notes/assumptions/9.md). -/
theorem displayDone_of_read {it : Item} (hk : it.kind = .rawr) (c : Config) (i : Instr) (d : Display) :
    displayDone c i it d = if it.bytes = [] then d else { Display.allUnknown with cgKnown := d.cgKnown } := by
  simp [displayDone, hk, List.isEmpty_iff]

theorem itemData_of_read {it : Item} (hk : it.kind = .rawr) (s : State) (i : Instr) (bs : List Byte) :
    itemData s i it bs = readResult s.cfg i bs s.draws := by
  simp [itemData, hk]

section
variable {i : Instr} {it : Item} {s : State} {bs : List Byte} {rest : List BusAnswer}
  (hans : s.answers = .ok bs :: rest) (hk : it.kind = .rawr)
include hans hk

theorem answerItem_read {data : List Byte} (hread : readResult s.cfg i bs s.draws = some data) :
    answerItem i it s = itemDone i it data s := by
  simp only [answerItem, nextAnswer, hans, itemData_of_read hk, hread]

theorem answerItem_read_failed (hread : readResult s.cfg i bs s.draws = none) :
    answerItem i it s = itemFailed i it s := by
  simp only [answerItem, nextAnswer, hans, itemData_of_read hk, hread]

end

/-- Settles O40, from `itemDone_eq`: a write keeps `rdata`, a read leaves its response bytes there. -/
theorem transactionCompletes : Obligations.TransactionCompletes := by
  intro s r it bs rest hbus hans
  refine ⟨fun hk => ?write, fun data hk hread => ?read⟩
  case write =>
    refine ⟨_, step_onBus hbus, ?_⟩
    rw [answerItem_ok hans hk, itemDone_eq, hans]
    exact ⟨rfl, rfl, by rw [itemTx, itemOp_of_write hk], rfl⟩
  case read =>
    refine ⟨_, step_onBus hbus, ?_⟩
    rw [answerItem_read hans hk hread, itemDone_eq, hans, displayDone_of_read hk]
    exact ⟨rfl, rfl, rfl, by rw [itemTx, itemOp_of_read hk], rfl⟩

/-- Of all instructions only LDGLYPH has OP 0x08 (30_encoding.md R100). -/
theorem onFail_eq (i : Instr) (s : State) :
    onFail i s = { s with cgValid := if instrOp i = 0x08 then false else s.cgValid } := by
  cases i with
  | reserved op a b =>
    have hop : (1#1 ++ op : BitVec 5) ≠ 0x08 := by revert op; decide
    rw [instrOp, if_neg hop]
    rfl
  | _ => rfl

theorem strobeFailed_eq (k : Kind) (s : State) :
    strobeFailed k s =
      { s with desync := s.desync || k == .enh || k == .enl, acUnk := s.acUnk || k == .enh || k == .enl } := by
  cases k <;> simp [strobeFailed, beq_eq_decide]

/-- An item that failed: everything it does (41_sequencer.md R141). -/
theorem itemFailed_eq (i : Instr) (it : Item) (s : State) :
    itemFailed i it s =
      { s with
        flight := none, tmr := it.gap, aborting := true, answers := s.answers.tail, draws := s.draws + 1,
        trace := s.trace ++ [itemTx i it s .fail], display := displayFailed it s.display,
        desync := s.desync || it.kind == .enh || it.kind == .enl,
        acUnk := s.acUnk || it.kind == .enh || it.kind == .enl,
        cgValid := if instrOp i = 0x08 then false else s.cgValid } := by
  rw [itemFailed, onFail_eq, strobeFailed_eq]
  rfl

/-- Settles O41, from `itemFailed_eq`: a count above BLOCK_MAX ends a read as a failure does. -/
theorem transactionFails : Obligations.TransactionFails := by
  intro s r it a rest hbus hans hfail
  have hanswer : answerItem (decodeRequest r) it s = itemFailed (decodeRequest r) it s := by
    obtain rfl | ⟨hk, bs, rfl, hread⟩ := hfail
    · exact answerItem_fail hans
    · exact answerItem_read_failed hans hk hread
  refine ⟨_, step_onBus hbus, ?_⟩
  rw [hanswer, itemFailed_eq, hans, instrOp_decodeRequest]
  exact ⟨rfl, rfl⟩

end Sys2Proof.Machine
end

section
/-! PROOFS. INIT to its end (41_sequencer.md R143, R144, 20_memory.md R74): what the command snoop makes of its plan,
what its writes leave of the display, and where its first failure leads. -/

namespace Sys2Proof.Machine

/-! ### What a list of completed writes leaves -/

section
variable (i : Instr) (l : List Item) (s : State)

theorem itemsRun_cfg : (itemsRun i l s).cfg = s.cfg := by rw [itemsRun_frame]
theorem itemsRun_bl : (itemsRun i l s).bl = s.bl := by rw [itemsRun_frame]
theorem itemsRun_cgValid : (itemsRun i l s).cgValid = s.cgValid := by rw [itemsRun_frame]
theorem itemsRun_rdata : (itemsRun i l s).rdata = s.rdata := by rw [itemsRun_frame]
theorem itemsRun_responses : (itemsRun i l s).responses = s.responses := by rw [itemsRun_frame]
theorem itemsRun_trace : (itemsRun i l s).trace = s.trace ++ planTrace i s l := by rw [itemsRun_frame]
theorem itemsRun_display : (itemsRun i l s).display = latchAll s.cfg i l s.display := by rw [itemsRun_frame]

end

/-- `t` has the fields of `s` that the command snoop writes (40_protocol_primitives.md R123). -/
def SameSnooped (s t : State) : Prop :=
  t.emId = s.emId ∧ t.emS = s.emS ∧ t.fsDl = s.fsDl ∧ t.fsN = s.fsN ∧ t.fsF = s.fsF ∧ t.acUnk = s.acUnk ∧
    t.desync = s.desync

/-- The snoops of a list of items, in order. -/
def snoopItems (l : List Item) (s : State) : State := l.foldl (fun s it => snoopItem it s) s

/-- What the snoop makes of its fields depends on them only. -/
theorem SameSnooped.after_snoop {s t : State} (h : SameSnooped s t) (b : Byte) :
    SameSnooped (snoop b s) (snoop b t) := by
  obtain ⟨hId, hS, hDl, hN, hF, hAc, hDs⟩ := h
  unfold snoop
  split_ifs <;> simp only [SameSnooped, hId, hS, hDl, hN, hF, hAc, hDs, and_self]

theorem SameSnooped.after_snoopItem {s t : State} (h : SameSnooped s t) (it : Item) :
    SameSnooped (snoopItem it s) (snoopItem it t) := by
  unfold snoopItem
  split
  · exact h.after_snoop _
  · exact h

/-- A write that completes leaves in the snooped fields what its snoop does. -/
theorem SameSnooped.after_itemRun {s t : State} (h : SameSnooped s t) (i : Instr) (it : Item) :
    SameSnooped (snoopItem it s) (itemRun i t it) :=
  SameSnooped.after_snoopItem (t := { dropAnswer t with
    flight := none, tmr := it.gap, seq := t.seq + 1, rdata := t.rdata, trace := t.trace ++ [itemTx i it t .ok],
    display := displayDone t.cfg i it t.display }) h it

theorem SameSnooped.after_itemsRun {s t : State} (h : SameSnooped s t) (i : Instr) (l : List Item) :
    SameSnooped (snoopItems l s) (itemsRun i l t) := by
  induction l generalizing s t with
  | nil => exact h
  | cons it l ih => exact ih (h.after_itemRun i it)

/-! ### INIT's 24 writes -/

/-- The state `s` after INIT's writes all completed. -/
def initWritten (s : State) : State := itemsRun (.init 0 0 []) (initPlan s.cfg s.bl) s

/-- INIT's commands leave 4-bit mode, two lines, an incrementing cursor and a known AC (R143). -/
theorem initWritten_snooped (s : State) : SameSnooped { s with
    fsDl := false, fsN := true, fsF := false, desync := s.desync || false, acUnk := false, emId := true, emS := false }
    (initWritten s) :=
  have hrefl : SameSnooped s s := ⟨rfl, rfl, rfl, rfl, rfl, rfl, rfl⟩
  hrefl.after_itemsRun (.init 0 0 []) (initPlan s.cfg s.bl)

/-- Only the latch of the display is known, besides what CGRAM was told (notes/assumptions/12.md). -/
theorem initWritten_display (s : State) : (initWritten s).display =
    { Display.allUnknown with
      q := some (expByte s.cfg (lowNibble 0x06) false false s.bl), cgram := s.display.cgram,
      cgKnown := s.display.cgKnown } := itemsRun_display _ _ s

/-- Where an INIT whose writes all complete leads, from a state `v` that has what INIT's acceptance keeps of `s`. -/
theorem reaches_initWritten {s t : State} {rest : List BusAnswer} (hrest : AtRest s) (haddr : s.addrOk = true)
    (he : exec (.init 0 0 []) s = .next t) (hans : AnswersOk s 24 rest) :
    ∃ v, Reaches t (finishRequest (.init 0 0 []) (initWritten v)) ∧ v.cfg = s.cfg ∧ v.bl = s.bl ∧
      v.cgValid = s.cgValid ∧ v.rdata = [] ∧ v.responses = s.responses ∧ v.display = s.display := by
  obtain rfl := Host.Outcome.next.inj ((initTaken s haddr).symm.trans he)
  exact ⟨_, reaches_done hrest he rfl (allWrites_init s.cfg s.bl) hans, rfl, rfl, rfl, rfl, rfl, rfl⟩

/-- Settles O46: the snoops give the snooped fields, INIT's last byte the latch, and its end the rest of the display. -/
theorem initEndsReady : Obligations.InitEndsReady := by
  intro s t rest hrest haddr he hans
  obtain ⟨v, hreach, hcfg, hbl, hcg, hrdata, hresp, hdisplay⟩ := reaches_initWritten hrest haddr he hans
  obtain ⟨hId, hS, hDl, hN, hF, hAc, -⟩ := initWritten_snooped v
  have hwcfg : (initWritten v).cfg = v.cfg := itemsRun_cfg _ _ v
  have hwbl : (initWritten v).bl = v.bl := itemsRun_bl _ _ v
  have hwcg : (initWritten v).cgValid = v.cgValid := itemsRun_cgValid _ _ v
  have hwrdata : (initWritten v).rdata = v.rdata := itemsRun_rdata _ _ v
  have hwresp : (initWritten v).responses = v.responses := itemsRun_responses _ _ v
  have hwdisplay := initWritten_display v
  generalize initWritten v = w at *
  have hc : controlBitsLegal v.cfg = true := by
    obtain ⟨hlegal, -⟩ := hrest
    simp_all [configLegal]
  obtain ⟨-, -, hlow⟩ := expByte_control hc (lowNibble 0x06) false false v.bl
  have hfinal : (finishRequest (.init 0 0 []) w).display = displayInitDone w.display := rfl
  rw [hwdisplay, hdisplay] at hfinal
  refine ⟨_, hreach, rfl, rfl, rfl, hDl, hN, hF, hAc, hId, hS, hwbl.trans hbl, hwcg.trans hcg, ?responses, ?inStep,
    ?_⟩
  case responses => rw [finishRequest_responses, hwresp, hresp, hwrdata, hrdata]
  case inStep =>
    rw [hfinal, finishRequest_cfg, hwcfg]
    exact ⟨rfl, rfl, _, rfl, hlow⟩
  rw [hfinal]
  exact ⟨rfl, rfl, rfl, rfl, rfl, rfl, rfl, rfl, fun a ha => (memRead_memFill 128 _ a).trans (if_pos ha)⟩

/-! ### INIT's failure -/

theorem strobe_of_mem_nibItems {c : Config} {bl : Bool} {d : Nibble} {rs : Bool} {extra : Nat}
    {done : Option (Byte × Bool)} {it : Item} (h : it ∈ nibItems c bl d rs extra done) :
    it.kind = .enh ∨ it.kind = .enl := by
  simp only [nibItems, List.mem_cons, List.not_mem_nil, or_false] at h
  obtain rfl | rfl := h
  · exact .inl rfl
  · exact .inr rfl

/-- A strobe write that fails sets DESYNC and AC_UNK (40_protocol_primitives.md R124). -/
theorem itemFailed_strobe {it : Item} (h : it.kind = .enh ∨ it.kind = .enl) (i : Instr) (s : State) :
    (itemFailed i it s).desync = true ∧ (itemFailed i it s).acUnk = true := by
  rw [itemFailed_eq]
  obtain h | h := h <;> simp [h]

/-- Where an INIT leads whose item `n` is the first to fail, from a state `v` that has the outputs of `s`. -/
theorem reaches_initFailed {s t : State} {n : Nat} {it : Item} {rest : List BusAnswer} (hrest : AtRest s)
    (haddr : s.addrOk = true) (he : exec (.init 0 0 []) s = .next t) (hit : (initPlan s.cfg s.bl)[n]? = some it)
    (hans : AnswersOk s n (.fail :: rest)) :
    ∃ v, Reaches t (abortRequest (.init 0 0 []) { itemFailed (.init 0 0 []) it
        (itemsRun (.init 0 0 []) ((initPlan s.cfg s.bl).take n) v) with tmr := 0 }) ∧
      v.responses = s.responses ∧ v.trace = s.trace := by
  obtain rfl := Host.Outcome.next.inj ((initTaken s haddr).symm.trans he)
  exact ⟨_, reaches_failed hrest he rfl hit hans, rfl, rfl⟩

/-- Settles O47: item `n` of INIT's plan is a strobe write, and the `n` before it completed. -/
theorem initFailureFaults : Obligations.InitFailureFaults := by
  intro s t n rest hrest haddr he hn hans
  obtain ⟨it, hit⟩ : ∃ it, (initPlan s.cfg s.bl)[n]? = some it := ⟨_, List.getElem?_eq_getElem hn⟩
  obtain ⟨d, rs, extra, done, hnib⟩ := nibbleWrites_init it (List.mem_of_getElem? hit)
  obtain ⟨v, hreach, hresp, htrace⟩ := reaches_initFailed hrest haddr he hit hans
  have hwresp := itemsRun_responses (.init 0 0 []) ((initPlan s.cfg s.bl).take n) v
  have hwtrace := itemsRun_trace (.init 0 0 []) ((initPlan s.cfg s.bl).take n) v
  have hlen : n ≤ (initPlan s.cfg s.bl).length := hn.le
  generalize itemsRun (.init 0 0 []) ((initPlan s.cfg s.bl).take n) v = w at *
  obtain ⟨hdesync, hacUnk⟩ := itemFailed_strobe (strobe_of_mem_nibItems hnib) (.init 0 0 []) w
  refine ⟨_, hreach, rfl, rfl, hdesync, hacUnk, rfl, ?responses, ?trace⟩
  case responses => simp [hwresp, hresp, failCode, isInit]
  case trace => simp [hwtrace, htrace, planTrace, hlen, Nat.add_assoc]

end Sys2Proof.Machine
end

section
/-! PROOFS. LDGLYPH (42_cgram.md R171 to R173): its plan, where a load leads that completes and one that fails, and what a
completed one leaves in the display's CGRAM. -/

namespace Sys2Proof.Machine

/-! ### The plan -/

theorem cgCommand_eq_ofNat (slot : Nat) : cgCommand slot = BitVec.ofNat 8 (0x40 + 8 * slot) := (BitVec.ofNat_add _ _).symm

theorem glyphRows_eq_flatMap (c : Config) (bl : Bool) (p : List Byte) (slot : Nat) :
    glyphRows c bl p slot = (List.range 8).flatMap fun r => byteItems c bl (glyphRow p slot r) true := by
  rw [glyphRows, textItems_eq_flatten, List.map_map]
  rfl

theorem slotItems_eq (c : Config) (bl : Bool) (p : List Byte) (slot : Nat) :
    slotItems c bl p slot = byteItems c bl (BitVec.ofNat 8 (0x40 + 8 * slot)) false ++
      ((List.range 8).map fun r => byteItems c bl (p.getD (8 * slot + r) 0 &&& 0x1F) true).flatten := by
  rw [slotItems, glyphRows_eq_flatMap, cgCommand_eq_ofNat]
  rfl

/-- A load of 64 bytes passes its check in a READY block with an address. -/
theorem exec_ldglyph {s : State} {p : List Byte} (hp : p.length = 64) (haddr : s.addrOk = true)
    (hready : s.pstate = .ready) : exec (.ldglyph 0 0 p) s = .next (accepted (.ldglyph 0 0 p) s) :=
  exec_of_ready haddr hready rfl (by simp [legalOperands, hp]) (List.cons_ne_nil _ _)

/-- Settles O27: the plan is the slots' items, in order. -/
theorem ldglyphTaken : Obligations.LdglyphTaken := by
  intro s p hp haddr hready
  have hreq : encodeRequest (.ldglyph 0 0 p) = ⟨0x4000, p⟩ :=
    congrArg (Request.mk · p) (by decide : makeHeader 8 0 0 = 0x4000)
  simp only [← hreq, ← slotItems_eq]
  exact exec_ldglyph hp haddr hready

/-! ### Where a load leads -/

theorem itemsRun_pstate (i : Instr) (l : List Item) (s : State) : (itemsRun i l s).pstate = s.pstate := by
  rw [itemsRun_frame]

theorem snoopItems_append (l m : List Item) (s : State) :
    snoopItems (l ++ m) s = snoopItems m (snoopItems l s) := List.foldl_append

/-- Of a full byte's items the last one is marked, with the byte. -/
theorem snoopItems_byteItems (c : Config) (bl : Bool) (b : Byte) (rs : Bool) (s : State) :
    snoopItems (byteItems c bl b rs) s = if rs then s else snoop b s := by
  cases rs <;> rfl

theorem snoopItems_textItems (c : Config) (bl : Bool) (t : List Byte) (s : State) :
    snoopItems (textItems c bl t) s = s := by
  induction t with
  | nil => rfl
  | cons x t ih => rw [textItems, snoopItems_append, snoopItems_byteItems, if_pos rfl, ih]

/-- The slots' commands are set-CGRAM commands (20_memory.md R80, 40_protocol_primitives.md R123). -/
theorem cgCommand_class : ∀ slot < 8, (cgCommand slot).extractLsb' 6 2 = 0b01#2 ∧ cgCommand slot &&& 0xC0 = 0x40 := by
  decide

/-- A slot's command leaves AC unknown to the block, and its rows are not snooped. -/
theorem snoopItems_slotItems (c : Config) (bl : Bool) (p : List Byte) {slot : Nat} (hslot : slot < 8) (s : State) :
    snoopItems (slotItems c bl p slot) s = { s with acUnk := true } := by
  obtain ⟨-, hset, -⟩ := snoopCases (cgCommand slot) s
  rw [slotItems, glyphRows, snoopItems_append, snoopItems_textItems, snoopItems_byteItems]
  exact hset (cgCommand_class slot hslot).1

theorem snoopItems_glyphPlan (c : Config) (bl : Bool) (p : List Byte) (s : State) :
    snoopItems (glyphPlan c bl p) s = { s with acUnk := true } := by
  simp [glyphPlan, List.range_succ, snoopItems_append, snoopItems_slotItems]

/-- The writes of a load that all complete leave AC unknown to the block (42_cgram.md R172). -/
theorem itemsRun_glyphPlan_acUnk (i : Instr) (c : Config) (bl : Bool) (p : List Byte) (s : State) :
    (itemsRun i (glyphPlan c bl p) s).acUnk = true := by
  have hrefl : SameSnooped s s := ⟨rfl, rfl, rfl, rfl, rfl, rfl, rfl⟩
  obtain ⟨-, -, -, -, -, hacUnk, -⟩ := hrefl.after_itemsRun i (glyphPlan c bl p)
  rw [hacUnk, snoopItems_glyphPlan]

theorem finishRequest_ldglyph_cgValid (a : BitVec 3) (b : Byte) (p : List Byte) (s : State) :
    (finishRequest (.ldglyph a b p) s).cgValid = true := rfl

/-- Settles O48: a load that completes ends with `finishRequest`, its last command having set AC_UNK; one that fails does so
at a strobe write. -/
theorem glyphLoadOutcome : Obligations.GlyphLoadOutcome := by
  intro s t p rest hrest haddr hready hp he
  obtain rfl := Host.Outcome.next.inj ((exec_ldglyph hp haddr hready).symm.trans he)
  have hplan : (accepted (.ldglyph 0 0 p) s).plan = glyphPlan s.cfg s.bl p := rfl
  have hlen := glyphPlan_length s.cfg s.bl p
  refine ⟨fun hans => ?completed, fun n hn hans => ?failed⟩
  case completed =>
    have hreach := reaches_done hrest he rfl (allWrites_glyph s.cfg s.bl p) (by rwa [hplan, hlen])
    refine ⟨_, hreach, rfl, finishRequest_ldglyph_cgValid 0 0 p _, ?_, rfl⟩
    rw [finishRequest_acUnk, hplan]
    exact itemsRun_glyphPlan_acUnk _ _ _ p _
  case failed =>
    obtain ⟨it, hit⟩ : ∃ it, (glyphPlan s.cfg s.bl p)[n]? = some it :=
      ⟨_, List.getElem?_eq_getElem (hlen.symm ▸ hn)⟩
    obtain ⟨d, rs, extra, done, hnib⟩ := nibbleWrites_glyph p it (List.mem_of_getElem? hit)
    have hreach := reaches_failed hrest he rfl hit hans
    have hps := itemsRun_pstate (.ldglyph 0 0 p) ((accepted (.ldglyph 0 0 p) s).plan.take n)
      { accepted (.ldglyph 0 0 p) s with tmr := 0 }
    generalize itemsRun (.ldglyph 0 0 p) _ _ = w at hreach hps
    obtain ⟨hdesync, hacUnk⟩ := itemFailed_strobe (strobe_of_mem_nibItems hnib) (.ldglyph 0 0 p) w
    exact ⟨_, hreach, rfl, rfl, hacUnk, hdesync, rfl, (itemFailed_pstate _ it w).trans (hps.trans hready)⟩

/-! ### CGRAM after a load -/

/-- What CGRAM entry `x` is told, slot `x / 8` and row `x % 8`: the low 5 bits of the payload byte there (42_cgram.md R172). -/
def glyphBits (p : List Byte) (x : Nat) : BitVec 5 := (p.getD x 0 &&& 0x1F).extractLsb' 0 5

/-- A display in step that increments, whose CGRAM was told the first `n` rows of `p` and whose DDRAM is `ddram`. -/
structure RowsTold (c : Config) (p : List Byte) (ddram : Memory 8) (n : Nat) (d : Display) : Prop where
  inStep : InStep c d
  incr_eq : d.incr = some true
  ddram_eq : d.ddram = ddram
  rows : ∀ x < n, memRead d.cgram x = some (glyphBits p x)

/-- The display stores its next data byte at CGRAM address `x`, modulo 64. -/
def AtCgram (x : Nat) (d : Display) : Prop := d.tgt = some .cg ∧ d.ac = some (BitVec.ofNat 7 (x % 64))

/-- AC[5:0] steps modulo 64 (20_memory.md R83). -/
theorem advanceCg_ofNat (x : Nat) :
    advanceCg (some true) (BitVec.ofNat 7 (x % 64)) = some (BitVec.ofNat 7 ((x + 1) % 64)) := by
  obtain ⟨a, ha, hdiv, hmod⟩ := advanceCg_known true (BitVec.ofNat 7 (x % 64))
  rw [ha]
  refine congrArg some (BitVec.eq_of_toNat_eq ?_)
  simp only [BitVec.toNat_ofNat, if_true] at hdiv hmod ⊢
  omega

theorem cgCommand_address : ∀ slot < 8,
    ((cgCommand slot).extractLsb' 0 6).setWidth 7 = BitVec.ofNat 7 (8 * slot % 64) := by
  decide

/-- Parts of a plan that each take a display from `P k` to `P (k + 1)`. -/
theorem latchAll_flatMap_range {c : Config} {i : Instr} {f : Nat → List Item} {P : Nat → Display → Prop} (n : Nat)
    (hstep : ∀ k < n, ∀ d, P k d → P (k + 1) (latchAll c i (f k) d)) {d : Display} (h0 : P 0 d) :
    P n (latchAll c i ((List.range n).flatMap f) d) := by
  induction n with
  | zero => exact h0
  | succ n ih =>
    rw [List.range_succ, List.flatMap_append, List.flatMap_singleton, latchAll_append]
    exact hstep n n.lt_succ_self _ (ih fun k hk => hstep k (hk.trans n.lt_succ_self))

section
variable {c : Config} {i : Instr} (hc : controlBitsLegal c = true) (hi : followsStrobe i = true)
  {p : List Byte} {ddram : Memory 8} {d : Display} {n : Nat} (bl : Bool)
include hc hi

/-- A slot's command points the display at the slot's first row. -/
theorem RowsTold.after_cgCommand (h : RowsTold c p ddram n d) {slot : Nat} (hslot : slot < 8) :
    RowsTold c p ddram n (latchAll c i (byteItems c bl (cgCommand slot) false) d) ∧
      AtCgram (8 * slot) (latchAll c i (byteItems c bl (cgCommand slot) false) d) := by
  obtain ⟨⟨hmode, hphase, -⟩, hincr, hddram, hrows⟩ := h
  obtain ⟨-, -, -, -, -, -, hset, -⟩ := displayCommands (cgCommand slot) d
  obtain ⟨-, -, hlow⟩ := expByte_control hc (lowNibble (cgCommand slot)) false false bl
  rw [byteItems, latchAll_byteItemsWith hc hi bl _ _ _ hmode hphase, displayByte, if_neg Bool.false_ne_true,
    hset (cgCommand_class slot hslot).2, cgCommand_address slot hslot]
  exact ⟨⟨⟨hmode, rfl, _, rfl, hlow⟩, hincr, hddram, hrows⟩, rfl, rfl⟩

/-- A row is stored where the display points, and the next one will be stored after it. -/
theorem RowsTold.after_row (h : RowsTold c p ddram n d) (hat : AtCgram n d) (hn : n < 64) :
    RowsTold c p ddram (n + 1) (latchAll c i (byteItems c bl (p.getD n 0 &&& 0x1F) true) d) ∧
      AtCgram (n + 1) (latchAll c i (byteItems c bl (p.getD n 0 &&& 0x1F) true) d) := by
  obtain ⟨⟨hmode, hphase, -⟩, hincr, hddram, hrows⟩ := h
  obtain ⟨htgt, hac⟩ := hat
  obtain ⟨-, -, hlow⟩ := expByte_control hc (lowNibble (p.getD n 0 &&& 0x1F)) true false bl
  have haddr : (BitVec.ofNat 7 (n % 64)).toNat % 64 = n := by
    rw [BitVec.toNat_ofNat]
    omega
  rw [byteItems, latchAll_byteItemsWith hc hi bl _ _ _ hmode hphase, displayByte, if_pos rfl, displayData_cg _ htgt hac,
    haddr, hincr, advanceCg_ofNat]
  refine ⟨⟨⟨hmode, rfl, _, rfl, hlow⟩, rfl, hddram, fun x hx => ?_⟩, htgt, rfl⟩
  by_cases hxn : x = n
  · rw [hxn]
    exact memRead_memWrite_same _ _ _
  · exact (memRead_memWrite_other _ _ _ _ hxn).trans (hrows x (by omega))

/-- A slot: its command, then its 8 rows. -/
theorem RowsTold.after_slot {slot : Nat} (h : RowsTold c p ddram (8 * slot) d) (hslot : slot < 8) :
    RowsTold c p ddram (8 * (slot + 1)) (latchAll c i (slotItems c bl p slot) d) ∧
      AtCgram (8 * (slot + 1)) (latchAll c i (slotItems c bl p slot) d) := by
  rw [slotItems, glyphRows_eq_flatMap, latchAll_append]
  exact latchAll_flatMap_range (P := fun r d => RowsTold c p ddram (8 * slot + r) d ∧ AtCgram (8 * slot + r) d) 8
    (fun r hr d hd => hd.1.after_row hc hi bl hd.2 (by omega)) (h.after_cgCommand hc hi bl hslot)

/-- All 64 rows: AC has wrapped to 0. -/
theorem RowsTold.after_glyphPlan (h : RowsTold c p ddram 0 d) :
    RowsTold c p ddram 64 (latchAll c i (glyphPlan c bl p) d) ∧ AtCgram 64 (latchAll c i (glyphPlan c bl p) d) := by
  have hseven : RowsTold c p ddram (8 * 7) (latchAll c i ((List.range 7).flatMap (slotItems c bl p)) d) :=
    latchAll_flatMap_range (P := fun slot => RowsTold c p ddram (8 * slot)) 7
      (fun slot hslot d hd => (hd.after_slot hc hi bl (by omega)).1) h
  rw [glyphPlan, List.range_succ, List.flatMap_append, List.flatMap_singleton, latchAll_append]
  exact hseven.after_slot hc hi bl (by decide)

end

/-- A load that completes on a display in step makes CGRAM known (20_memory.md R84). -/
theorem displayLoadDone_of_inStep {c : Config} {d : Display} (h : InStep c d) :
    displayLoadDone d = { d with cgKnown := true } := by
  obtain ⟨hmode, hphase, -⟩ := h
  simp [displayLoadDone, hmode, hphase]

/-- Settles O59: row by row, then the completion. -/
theorem glyphsReachCgram : Obligations.GlyphsReachCgram := by
  intro c bl p d hlegal hstep hincr _
  have hc : controlBitsLegal c = true := by simp_all [configLegal]
  have h0 : RowsTold c p d.ddram 0 d := ⟨hstep, hincr, rfl, nofun⟩
  obtain ⟨⟨hstep', -, hddram, hrows⟩, htgt, hac⟩ := h0.after_glyphPlan hc (i := .ldglyph 0 0 p) rfl bl
  rw [displayLoadDone_of_inStep hstep']
  exact ⟨_, rfl, fun k r hk hr => hrows (8 * k + r) (by omega), hac, htgt, hddram, hstep'⟩

end Sys2Proof.Machine
end

section
/-! PROOFS. The raw transport requests (43_transport.md R183 to R190): they are taken in every PSTATE, and no step of theirs
writes what the block knows of the protocol. -/

namespace Sys2Proof.Machine

section
variable {i : Instr} (h : isTransport i = true)
include h

theorem kind_of_isTransport : isReserved i = false ∧ needsReady i = false ∧ isInit i = false := by
  cases i with
  | xwb a b p | xwr a b p | xwblk a b p | xrb a b p | xrr a b p | xrblk a b p => exact ⟨rfl, rfl, rfl⟩
  | _ => exact absurd h Bool.false_ne_true

/-- A raw transport request has no effect of its own on the block, as it starts or as it ends. -/
theorem effects_of_isTransport (s : State) :
    preEffects i s = s ∧ onFail i s = s ∧ onAbort i s = s ∧ onDone i s = s := by
  cases i with
  | xwb a b p | xwr a b p | xwblk a b p | xrb a b p | xrr a b p | xrblk a b p => exact ⟨rfl, rfl, rfl, rfl⟩
  | _ => exact absurd h Bool.false_ne_true

/-- The plan of a raw transport request is one raw transaction, which completes no display byte. -/
theorem requestPlan_of_isTransport (c : Config) (bl : Bool) : ∃ it, requestPlan c bl i = [it] ∧
    it.done = none ∧ (it.kind = .raww ∨ it.kind = .rawr) := by
  cases i with
  | xwb a b p | xwr a b p | xwblk a b p => exact ⟨_, rfl, rfl, .inl rfl⟩
  | xrb a b p | xrr a b p | xrblk a b p => exact ⟨_, rfl, rfl, .inr rfl⟩
  | _ => exact absurd h Bool.false_ne_true

/-- In every PSTATE, a block with an address takes a raw transport request with legal operands. -/
theorem exec_of_isTransport {s : State} (haddr : s.addrOk = true) (hlegal : legalOperands s.cfg i = true) :
    exec i s = .next (accepted i s) := by
  obtain ⟨hres, hready, -⟩ := kind_of_isTransport h
  have hok : acceptCheck i s = .ok := (acceptCheck_ok_iff i s).2
    ⟨hres, hlegal, fun _ => haddr, fun hn => absurd (hready.symm.trans hn) Bool.false_ne_true⟩
  obtain ⟨it, hplan, -⟩ := requestPlan_of_isTransport h s.cfg (newBacklight i s.bl)
  have hne : (accepted i s).plan ≠ [] := by
    rw [accepted_plan, hplan]
    exact List.cons_ne_nil it []
  rw [exec_eq]
  exact takeRequest_runs hok hne

end

/-- The count byte stands before the data exactly where it goes on the wire (R185). -/
theorem blockBytes_cons (c : Config) (reg l : Byte) (data : List Byte) :
    blockBytes c reg (l :: data) = reg :: ((if c.blockWriteCountOnWire then [l] else []) ++ data) := by
  unfold blockBytes
  split <;> rfl

/-- Settles O29: each passes its check, and its plan is the one raw write. -/
theorem rawWritesTaken : Obligations.RawWritesTaken := by
  intro s v reg data l haddr
  refine ⟨exec_of_isTransport rfl haddr rfl, exec_of_isTransport rfl haddr rfl, fun hlen hmax => ?block⟩
  rw [← blockBytes_cons]
  exact exec_of_isTransport rfl haddr (by simp [legalOperands, blockPayloadLegal, hlen, hmax])

/-- Settles O30: each passes its check, and its plan is the one raw read. -/
theorem rawReadsTaken : Obligations.RawReadsTaken := by
  intro s reg haddr
  exact ⟨exec_of_isTransport rfl haddr rfl, exec_of_isTransport rfl haddr rfl, exec_of_isTransport rfl haddr rfl⟩

/-! ### The protocol state is left alone (R190) -/

theorem SameProtocolState.refl (s : State) : SameProtocolState s s :=
  ⟨rfl, rfl, rfl, rfl, rfl, rfl, rfl, rfl, rfl, rfl⟩

theorem sameProtocolState_accepted {i : Instr} (h : isTransport i = true) (s : State) :
    SameProtocolState s (accepted i s) := by
  obtain ⟨hpre, -⟩ := effects_of_isTransport h { s with req := some (encodeRequest i), busy := true }
  rw [accepted, takenState, hpre]
  exact .refl s

theorem sameProtocolState_itemDone {it : Item} (hdone : it.done = none) (i : Instr) (data : List Byte) (s : State) :
    SameProtocolState s (itemDone i it data s) := by
  rw [itemDone, snoopItem, hdone]
  exact .refl s

/-- A raw transaction is no strobe, so its failure sets neither DESYNC nor AC_UNK (40_protocol_primitives.md R124). -/
theorem strobeFailed_of_raw {k : Kind} (h : k = .raww ∨ k = .rawr) (s : State) : strobeFailed k s = s := by
  obtain rfl | rfl := h <;> rfl

theorem sameProtocolState_itemFailed {i : Instr} {it : Item} (h : isTransport i = true)
    (hk : it.kind = .raww ∨ it.kind = .rawr) (s : State) : SameProtocolState s (itemFailed i it s) := by
  have honFail (u : State) : onFail i u = u := by
    obtain ⟨-, hfail, -⟩ := effects_of_isTransport h u
    exact hfail
  rw [itemFailed, honFail, strobeFailed_of_raw hk]
  exact .refl s

theorem sameProtocolState_abort {i : Instr} (h : isTransport i = true) (s : State) :
    SameProtocolState s (abortRequest i s) := by
  obtain ⟨-, -, habort, -⟩ := effects_of_isTransport h s
  rw [abortRequest, habort]
  exact .refl s

theorem sameProtocolState_finish {i : Instr} (h : isTransport i = true) (s : State) :
    SameProtocolState s (finishRequest i s) := by
  obtain ⟨-, -, -, hdone⟩ := effects_of_isTransport h s
  rw [finishRequest, hdone]
  exact .refl s

/-- The transaction on the bus is an item of the plan of the request that runs (10_state.md R27). -/
theorem Invariant.flight_mem_requestPlan {s : State} {r : Request} {it : Item} (h : Invariant s) (hx : Executes s r)
    (hf : s.flight = some it) : it ∈ requestPlan s.cfg s.bl (decodeRequest r) := by
  obtain ⟨-, hb, hreq⟩ := hx
  obtain ⟨r', hreq', hplan, -⟩ := h.running hb
  obtain rfl : r = r' := Option.some.inj (hreq.symm.trans hreq')
  obtain ⟨-, -, hit⟩ := h.in_flight it hf
  exact hplan ▸ List.mem_of_getElem? hit

/-- What a raw transport request has on the bus is a raw transaction that completes no display byte. -/
theorem Invariant.raw_of_flight {s : State} {r : Request} {it : Item} (h : Invariant s) (hx : Executes s r)
    (htr : isTransport (decodeRequest r) = true) (hf : s.flight = some it) :
    it.done = none ∧ (it.kind = .raww ∨ it.kind = .rawr) := by
  obtain ⟨raw, hplan, hraw⟩ := requestPlan_of_isTransport htr s.cfg s.bl
  obtain rfl : it = raw := List.mem_singleton.1 (hplan ▸ h.flight_mem_requestPlan hx hf)
  exact hraw

/-- Settles O50, by the cases of a step: the request has no effects of its own, and the invariant says that what it has on
the bus is a raw transaction. -/
theorem transportLeavesProtocolState : Obligations.TransportLeavesProtocolState := by
  intro s t i h hrst hcur htr hst
  have htakes {i' u} (hu : Takes s i' u) : isTransport i' = true :=
    Option.some.inj (hcur.symm.trans hu.currentInstr) ▸ htr
  have hruns {r} (hx : Executes s r) : isTransport (decodeRequest r) = true :=
    Option.some.inj (hcur.symm.trans hx.currentInstr) ▸ htr
  cases stepTo_of_step hst with
  | reset hr => exact absurd (hrst.symm.trans hr) Bool.false_ne_true
  | accept hu hok hplan | answer hu hok hplan => exact sameProtocolState_accepted (htakes hu) _
  | itemDone hx hf hans hdata =>
    obtain ⟨hdone, -⟩ := h.raw_of_flight hx (hruns hx) hf
    exact sameProtocolState_itemDone hdone _ _ s
  | itemFailed hx hf hans =>
    obtain ⟨-, hk⟩ := h.raw_of_flight hx (hruns hx) hf
    exact sameProtocolState_itemFailed (hruns hx) hk s
  | abort hx hf ht ha => exact sameProtocolState_abort (hruns hx) s
  | finish hx hf ht ha hp => exact sameProtocolState_finish (hruns hx) s
  | _ => exact .refl s

end Sys2Proof.Machine
end

section
/-! PROOFS. What a transaction of the raw transport ends in (43_transport.md R186 to R188, R192): a read's response, or a hang
that only a reset ends. -/

namespace Sys2Proof.Machine

/-! ### A transaction that hangs -/

/-- A state whose step leads back to it is never left. -/
theorem run_of_step_self {s : State} (h : step s = .next s) (k : Nat) : Host.Core.run Sys2Proof.core k s = .next s := by
  induction k with
  | zero => rfl
  | succ k ih =>
    have hs : Sys2Proof.core.step s = .next s := h
    simp only [Host.Core.run, hs]
    exact ih

theorem answerItem_never {i : Instr} {it : Item} {s : State} {rest : List BusAnswer}
    (ha : s.answers = .never :: rest) : answerItem i it s = s := by
  simp only [answerItem, nextAnswer, ha]

theorem step_reset {s : State} (hc : configLegal s.cfg = true) (hr : s.rst = true) : step s = .next (applyReset s) := by
  simp [step, hc, hr]

/-- Settles O42: the step that waits for the answer leads back to its own state. -/
theorem hangUntilReset : Obligations.HangUntilReset := by
  intro s r it rest hbus hans
  have hself : step s = .next s := by rw [step_onBus hbus, answerItem_never hans]
  obtain ⟨hc, -⟩ := hbus
  exact ⟨run_of_step_self hself, _, step_reset (s := { s with rst := true }) hc rfl, rfl⟩

/-! ### The bytes of a read -/

/-- Where the environment sent enough bytes, what is drawn of them is what it sent. -/
theorem drawBytes_eq_take_drop {bs : List Byte} {start k : Nat} (h : start + k ≤ bs.length) (n : Nat) :
    drawBytes bs n start k = (bs.drop start).take k := by
  refine List.ext_getElem (by simp [drawBytes]; omega) fun j hj hj' => ?_
  have hlt : start + j < bs.length := by simp [drawBytes] at hj; omega
  simp [drawBytes, drawByte, hlt]

/-- A counted block read responds with the count and the data, if the count is at most BLOCK_MAX (R188). -/
theorem readResult_counted {c : Config} (hmode : c.readBlockMode = .counted) {cnt : Byte} {data : List Byte}
    (hlen : data.length = cnt.toNat) (a : BitVec 3) (b : Byte) (p : List Byte) (n : Nat) :
    readResult c (.xrblk a b p) (cnt :: data) n = if cnt.toNat ≤ c.blockMax then some (cnt :: data) else none := by
  have hcnt : drawByte (cnt :: data) n 0 = cnt := rfl
  have hdata : drawBytes (cnt :: data) n 1 cnt.toNat = data := by
    rw [drawBytes_eq_take_drop (by simp [hlen, Nat.add_comm]), ← hlen]
    simp
  simp [readResult, readLength, isBlockRead, instrOp, hmode, hcnt, hdata]

/-- A fixed block read responds with READ_BLOCK_LEN and that many bytes (R188). -/
theorem readResult_fixed {c : Config} (hmode : c.readBlockMode = .fixed) {data : List Byte}
    (hlen : data.length = c.readBlockLen) (a : BitVec 3) (b : Byte) (p : List Byte) (n : Nat) :
    readResult c (.xrblk a b p) data n = some (BitVec.ofNat 8 c.readBlockLen :: data) := by
  have hdata : drawBytes data n 0 c.readBlockLen = data := by
    rw [drawBytes_eq_take_drop (by simp [hlen]), ← hlen]
    simp
  simp [readResult, readLength, isBlockRead, instrOp, hmode, hdata]

/-! ### Where a read leads -/

/-- The failed request's error is raised once the gap is over (41_sequencer.md R141). -/
theorem step_abort {r : Request} {s : State} (h : Running r { s with aborting := false }) (ha : s.aborting = true) :
    step s = .next (abortRequest (decodeRequest r) s) := by
  obtain ⟨hc, hr, hb, hq, hf, -, ht⟩ := h
  dsimp only at hc hr hb hq hf ht
  rw [step_of_busy hc hr hb]
  simp [runStep, hq, hf, ht, ha]

/-- The request `i` is taken from `s`, and it ends with the response `resp`. -/
def RespondsWith (i : Instr) (s : State) (resp : Response) : Prop :=
  ∃ t u, exec i s = .next t ∧ Reaches t u ∧ u.busy = false ∧ u.responses = s.responses ++ [resp]

/-- The raw read of an accepted request on the bus, after `sent`. -/
def readIssued (i : Instr) (sent : List Byte) (s : State) : State :=
  { accepted i s with tmr := 0, flight := some ⟨sent, 0, .rawr, none⟩ }

section
variable {i : Instr} {s : State} {sent bs : List Byte} {rest : List BusAnswer} (hrest : AtRest s)
  (he : exec i s = .next (accepted i s)) (hplan : requestPlan s.cfg (newBacklight i s.bl) i = rawRead sent)
include hrest he hplan

theorem reaches_readIssued : Reaches (accepted i s) (readIssued i sent s) ∧
    OnBus (readIssued i sent s) (encodeRequest i) ⟨sent, 0, .rawr, none⟩ := by
  obtain ⟨hrun, -⟩ := exec_running hrest he rfl
  have hnext : (accepted i s).plan[(accepted i s).seq.toNat]? = some ⟨sent, 0, .rawr, none⟩ := by
    rw [accepted_plan, hplan]
    rfl
  refine ⟨reaches_trans (reaches_wait hrun) (reaches_of_step (step_issue hrun hnext) (reaches_refl _)), ?_⟩
  obtain ⟨hc, hr, hb, hreq, -⟩ := hrun
  exact ⟨hc, hr, hb, hreq, rfl⟩

variable (hans : s.answers = .ok bs :: rest)
include hans

/-- A raw read that completes responds with its bytes. -/
theorem respondsWith_read {data : List Byte} (hread : readResult s.cfg i bs s.draws = some data) :
    RespondsWith i s ⟨.ok, data⟩ := by
  obtain ⟨hreach, hbus⟩ := reaches_readIssued hrest he hplan
  have hstep := step_onBus hbus
  rw [decodeRequest_encodeRequest, answerItem_read (s := readIssued i sent s) hans rfl hread] at hstep
  obtain ⟨hc, hr, hb, hreq, -⟩ := hbus
  have ha : (readIssued i sent s).aborting = false := by
    obtain ⟨-, -, -, -, ha⟩ := hrest
    exact ha
  have hrun : Running (encodeRequest i) (itemDone i ⟨sent, 0, .rawr, none⟩ data (readIssued i sent s)) := by
    simp [Running, hc, hr, hb, hreq, ha]
  have hend := step_finish hrun (by
    have hseq : (readIssued i sent s).seq = 0 := rfl
    have hp : (readIssued i sent s).plan = rawRead sent := hplan
    simp [hseq, hp, rawRead])
  rw [decodeRequest_encodeRequest] at hend
  refine ⟨_, _, he, reaches_trans hreach (reaches_of_step hstep (reaches_of_step hend (reaches_refl _))), rfl, ?_⟩
  simp [readIssued]

/-- A raw read that counts as failed responds with the request's error and no bytes. -/
theorem respondsWith_failCode (hread : readResult s.cfg i bs s.draws = none) : RespondsWith i s ⟨failCode i, []⟩ := by
  obtain ⟨hreach, hbus⟩ := reaches_readIssued hrest he hplan
  have hstep := step_onBus hbus
  rw [decodeRequest_encodeRequest, answerItem_read_failed (s := readIssued i sent s) hans rfl hread] at hstep
  obtain ⟨hc, hr, hb, hreq, -⟩ := hbus
  have hrun : Running (encodeRequest i)
      { itemFailed i ⟨sent, 0, .rawr, none⟩ (readIssued i sent s) with aborting := false } := by
    simp [Running, hc, hr, hb, hreq]
  have hend := step_abort hrun (by simp)
  rw [decodeRequest_encodeRequest] at hend
  refine ⟨_, _, he, reaches_trans hreach (reaches_of_step hstep (reaches_of_step hend (reaches_refl _))), rfl, ?_⟩
  simp [readIssued]

end

/-- Settles O49: the response is `readResult` of what was sent, or the failure it stands for. -/
theorem rawReadsRespond : Obligations.RawReadsRespond := by
  intro s reg v cnt data rest hrest haddr
  obtain ⟨hxrb, hxrr, hxrblk⟩ := rawReadsTaken s reg haddr
  refine ⟨fun hans i hi => ?byte, fun hans hmode hlen => ?counted, fun hans hmode hlen => ?fixed⟩
  case byte =>
    obtain rfl | rfl := hi
    · exact respondsWith_read hrest hxrb rfl hans rfl
    · exact respondsWith_read hrest hxrr rfl hans rfl
  case counted =>
    have hread := readResult_counted hmode hlen 0 reg [] s.draws
    split_ifs at hread ⊢ with hmax
    · exact respondsWith_read hrest hxrblk rfl hans hread
    · exact respondsWith_failCode hrest hxrblk rfl hans hread
  case fixed => exact respondsWith_read hrest hxrblk rfl hans (readResult_fixed hmode hlen 0 reg [] s.draws)

end Sys2Proof.Machine
end

section
/-! PROOFS. The acceptance check's errors (60_exceptions.md R204 to R208): which condition gives which code, and what a
refused request leaves. -/

namespace Sys2Proof.Machine

/-! ### The check's codes, in its order -/

section
variable {i : Instr} {s : State}

theorem acceptCheck_of_reserved (hres : isReserved i = true) : acceptCheck i s = .illegalOp := if_pos hres

theorem acceptCheck_of_illegal (hres : isReserved i = false) (hlegal : legalOperands s.cfg i = false) :
    acceptCheck i s = .badOperand := by
  simp [acceptCheck, hres, hlegal]

theorem acceptCheck_of_noAddress (hres : isReserved i = false) (hlegal : legalOperands s.cfg i = true)
    (hneeds : needsAddress i = true) (haddr : s.addrOk = false) : acceptCheck i s = .addressResolutionError := by
  simp [acceptCheck, hres, hlegal, hneeds, haddr]

theorem acceptCheck_of_notReady (hres : isReserved i = false) (hlegal : legalOperands s.cfg i = true)
    (haddr : needsAddress i = true → s.addrOk = true) (hneeds : needsReady i = true) (hps : s.pstate ≠ .ready) :
    acceptCheck i s = .notReady := by
  have hno : ¬(needsAddress i = true ∧ s.addrOk = false) := fun ⟨hn, ha⟩ =>
    absurd (ha.symm.trans (haddr hn)) Bool.false_ne_true
  simp [acceptCheck, hres, hlegal, hno, hneeds, hps]

theorem needsReady_of_acceptCheck (h : acceptCheck i s = .notReady) : needsReady i = true := by
  unfold acceptCheck at h
  split_ifs at h with _ _ _ hready
  exact hready.1

/-! ### What a refused request leaves (R210) -/

theorem exec_of_refused {code : ResultCode} (hcode : acceptCheck i s = code) (hne : code ≠ .ok) :
    exec i s = .next (raiseError code s) := by
  rw [exec_eq, takeRequest_fails (hcode ▸ hne), hcode]

/-- An idle block that refuses a request changes LAST_ERR, and responds. -/
theorem exec_of_refused_idle {code : ResultCode} (hb : s.busy = false) (ha : s.aborting = false)
    (hcode : acceptCheck i s = code) (hne : code ≠ .ok) :
    exec i s = .next { s with lastErr := code, responses := s.responses ++ [⟨code, []⟩] } := by
  rw [exec_of_refused hcode hne]
  simp only [raiseError, endRequest, hb, ha]

end

/-- Settles O14: each condition, those before it failing, gives the code of the check, and with it the response. -/
theorem checkOrder : Obligations.CheckOrder := by
  intro i s _
  obtain ⟨t, he⟩ := exec_next i s
  have hrefused {code} (hcode : acceptCheck i s = code) (hne : code ≠ .ok) :
      t.responses = s.responses ++ [⟨code, []⟩] := by
    obtain rfl := Host.Outcome.next.inj ((exec_of_refused hcode hne).symm.trans he)
    rfl
  refine ⟨t, he, fun hres => hrefused (acceptCheck_of_reserved hres) nofun,
    fun hres hlegal => hrefused (acceptCheck_of_illegal hres hlegal) nofun,
    fun hres hlegal hneeds haddr => hrefused (acceptCheck_of_noAddress hres hlegal hneeds haddr) nofun,
    fun hres hlegal haddr hneeds hps => hrefused (acceptCheck_of_notReady hres hlegal haddr hneeds hps) nofun,
    fun hres hlegal haddr hready => ?accepted⟩
  case accepted =>
    have hok : acceptCheck i s = .ok := (acceptCheck_ok_iff i s).2 ⟨hres, hlegal, haddr, hready⟩
    obtain ⟨-, -, h⟩ | ⟨-, -, h⟩ | ⟨herr, -⟩ := exec_cases i s
    · cases h.symm.trans he
      exact .inl ⟨rfl, rfl⟩
    · cases h.symm.trans he
      exact .inr ⟨answerAtOnce i s, rfl⟩
    · exact absurd hok herr

/-! ### Reserved OPs (R206) -/

theorem exists_reserved_iff_instrOp (i : Instr) : (∃ op a b, i = .reserved op a b) ↔ 16 ≤ (instrOp i).toNat := by
  cases i with
  | reserved op a b => simp [instrOp, reservedOp_toNat]
  | _ => simp [instrOp]

/-- A request is a reserved one by its OP field alone, whatever its payload. -/
theorem exists_reserved_iff_headerOp (r : Request) :
    (∃ op a b, decodeRequest r = .reserved op a b) ↔ 16 ≤ (headerOp r.header).toNat := by
  rw [exists_reserved_iff_instrOp, instrOp_decodeRequest]

/-- Bit 15 of a header is the high bit of its OP. -/
theorem le_headerOp_of_high_bit {hi : Byte} (h : hi.getLsbD 7 = true) (lo : Byte) :
    16 ≤ (headerOp (hi ++ lo)).toNat := by
  have hbit : (headerOp (hi ++ lo)).getLsbD 4 = true := by
    rw [headerOp, BitVec.getLsbD_extractLsb', headerOfBytes_getLsbD]
    exact h
  exact Nat.ge_two_pow_of_testBit hbit

/-- The byte-serial decoder reads a reserved request's two header bytes and no more. -/
theorem decodeBytes_reserved {hi lo : Byte} (hop : 16 ≤ (headerOp (hi ++ lo)).toNat) (rest : List Byte) :
    decodeBytes (hi :: lo :: rest) = .ok (decodeRequest ⟨hi ++ lo, []⟩, rest) :=
  decodeBytes_eq_ok_iff.2
    ⟨⟨hi ++ lo, []⟩, (payloadLength_reserved hop []).symm, by rw [requestBytes_of_headerBytes]; rfl, rfl⟩

/-- Settles O15: the first condition of the check; a reserved header frames no payload, and its OP alone makes it so. -/
theorem reservedIsIllegalOp : Obligations.ReservedIsIllegalOp := by
  refine ⟨fun op a b s hb ha => exec_of_refused_idle hb ha (acceptCheck_of_reserved rfl) nofun, ?bytes,
    fun r => (exists_reserved_iff_headerOp r).symm⟩
  case bytes =>
    intro hi lo rest h
    have hop := le_headerOp_of_high_bit h lo
    obtain ⟨op, a, b, hdec⟩ := (exists_reserved_iff_headerOp ⟨hi ++ lo, []⟩).2 hop
    exact ⟨op, a, b, hdec ▸ decodeBytes_reserved hop rest⟩

/-! ### Illegal operands (R207) -/

/-- NIBBLE's operand A is its select bit alone. -/
theorem selectField_eq_zero_iff (a : BitVec 3) : a.extractLsb' 1 2 = 0 ↔ a.toNat < 2 := by
  revert a; decide

/-- NIBBLE's operand B is its low nibble alone. -/
theorem highNibble_eq_zero_iff (b : Byte) : b.extractLsb' 4 4 = 0 ↔ b.toNat < 16 := by
  rw [← BitVec.toNat_inj, BitVec.extractLsb'_toNat, Nat.shiftRight_eq_div_pow]
  change b.toNat / 2 ^ 4 % 2 ^ 4 = 0 ↔ _
  have := b.isLt
  omega

theorem blockPayloadLegal_iff (c : Config) (p : List Byte) : blockPayloadLegal c p = true ↔
    ∃ l data, p = l :: data ∧ data.length = l.toNat ∧ l.toNat ≤ c.blockMax := by
  cases p with
  | nil => simp [blockPayloadLegal]
  | cons l data => simp [blockPayloadLegal]

/-- Settles O16: the second condition of the check; the legal set is R101's table row by row. -/
theorem illegalOperandIsBadOperand : Obligations.IllegalOperandIsBadOperand := by
  refine ⟨fun i s hb ha hres hlegal => ?refused, ?legalSet⟩
  case refused => exact exec_of_refused_idle hb ha (acceptCheck_of_illegal hres hlegal) nofun
  case legalSet =>
    intro c i
    cases i with
    | nibble a b p =>
      simp only [legalOperands, Bool.and_eq_true, beq_iff_eq, List.isEmpty_iff, and_assoc, selectField_eq_zero_iff,
        highNibble_eq_zero_iff]
    | xwblk a b p => simp [legalOperands, blockPayloadLegal_iff]
    | bkl a b p => simp [legalOperands, and_assoc, Nat.lt_succ_iff]
    | reserved op a b => simp [legalOperands]
    | _ => simp [legalOperands, and_assoc]

/-! ### No address (R204) -/

theorem needsAddress_of_ne_rdstat {i : Instr} (hres : isReserved i = false) (h : ∀ a b p, i ≠ .rdstat a b p) :
    needsAddress i = true := by
  cases i with
  | rdstat a b p => exact absurd rfl (h a b p)
  | reserved op a b => exact absurd hres.symm Bool.false_ne_true
  | _ => rfl

theorem firstProbed_eq_none_iff (p : ProbeAnswer) : firstProbed p = none ↔ p = none ∨ p = some [] := by
  match p with
  | none | some [] | some (_ :: _) => simp [firstProbed]

theorem resolvedOk_eq_false_iff (c : Config) (p : ProbeAnswer) : resolvedOk c p = false ↔
    c.explicitAddr = none ∧ (p = none ∨ p = some []) ∧ c.defaultAddr = none := by
  rw [← firstProbed_eq_none_iff, resolvedOk_eq, Option.isSome_eq_false_iff, Option.isNone_iff_eq_none, resolveAddr]
  cases c.explicitAddr with
  | some a => simp
  | none => cases firstProbed p <;> simp

/-- Only a reset writes the configuration, the address or the bus. -/
theorem StepTo.sameWiring {s t : State} (h : StepTo s t) (hr : s.rst = false) : SameWiring s t := by
  cases h with
  | reset hrst => exact absurd (hr.symm.trans hrst) Bool.false_ne_true
  | itemDone hx hf hans hdata | itemFailed hx hf hans | abort hx hf ht ha | finish hx hf ht ha hp => simp [SameWiring]
  | _ => exact ⟨rfl, rfl, rfl, rfl⟩

/-- Settles O17: the third condition of the check, and the resolver's sources; no step but a reset writes ADDR_OK. -/
theorem noAddressError : Obligations.NoAddressError := by
  refine ⟨fun i s hb ha hres hlegal hne haddr => ?refused, resolvedOk_eq_false_iff, fun s t hst hne => ?reset⟩
  case refused =>
    exact exec_of_refused_idle hb ha
      (acceptCheck_of_noAddress hres hlegal (needsAddress_of_ne_rdstat hres hne) haddr) nofun
  case reset =>
    by_contra hr
    obtain ⟨-, -, haddrOk, -⟩ := (stepTo_of_step hst).sameWiring (Bool.eq_false_iff.2 hr)
    exact hne haddrOk

/-! ### Not ready (R205) -/

theorem isReserved_of_needsReady {i : Instr} (h : needsReady i = true) : isReserved i = false := by
  cases i with
  | reserved op a b => exact absurd h Bool.false_ne_true
  | _ => rfl

/-- The requests that need READY are R205's eight. -/
theorem needsReady_iff (i : Instr) : needsReady i = true ↔
    ∃ a b p, i = .wcmd a b p ∨ i = .wdata a b p ∨ i = .nibble a b p ∨ i = .setline a b p ∨ i = .wline a b p ∨
      i = .wext a b p ∨ i = .bkl a b p ∨ i = .ldglyph a b p := by
  cases i <;> simp [needsReady]

/-- A response NotReady is the check's. -/
theorem acceptCheck_of_notReady_response {i : Instr} {s t : State} (he : exec i s = .next t)
    (h : t.responses = s.responses ++ [⟨.notReady, []⟩]) : acceptCheck i s = .notReady := by
  obtain ⟨-, -, h'⟩ | ⟨-, -, h'⟩ | ⟨-, h'⟩ := exec_cases i s <;> cases h'.symm.trans he
  case inr.inr => simpa [raiseError] using h
  all_goals simp at h

/-- Settles O18: the last condition of the check, which no other request meets. -/
theorem protocolRequestNotReady : Obligations.ProtocolRequestNotReady := by
  refine ⟨fun i s hb ha hneeds hlegal haddr hps => ?refused, fun i s t hneeds he hresp => ?others, needsReady_iff⟩
  case refused =>
    exact exec_of_refused_idle hb ha
      (acceptCheck_of_notReady (isReserved_of_needsReady hneeds) hlegal (fun _ => haddr) hneeds hps) nofun
  case others =>
    have hready := needsReady_of_acceptCheck (acceptCheck_of_notReady_response he hresp)
    exact absurd (hneeds.symm.trans hready) Bool.false_ne_true

end Sys2Proof.Machine
end

section
/-! PROOFS. Where a request ends (60_exceptions.md R201 to R203, R210; 41_sequencer.md R141): its plan completed, or
its first failing transaction. -/

namespace Sys2Proof.Machine

section
variable (i : Instr) (l : List Item) (s : State)

theorem itemsRun_answers : (itemsRun i l s).answers = s.answers.drop l.length := by rw [itemsRun_frame]
theorem itemsRun_port : (itemsRun i l s).port = s.port := by rw [itemsRun_frame]
theorem itemsRun_rx : (itemsRun i l s).rx = s.rx := by rw [itemsRun_frame]

/-- A transaction's trace element depends on the configuration, the bus and the address, which writes leave. -/
theorem itemTx_itemsRun (it : Item) (r : TxResult) : itemTx i it (itemsRun i l s) r = itemTx i it s r := by
  rw [itemsRun_frame]
  rfl

end

/-- The answers after `n` successes are those that were to follow them. -/
theorem AnswersOk.drop {s : State} {n : Nat} {rest : List BusAnswer} (h : AnswersOk s n rest) :
    s.answers.drop n = rest := by
  obtain ⟨oks, hans, rfl, -⟩ := h
  rw [hans, List.drop_left]

/-- Taking a request leaves the block busy only with the request's plan to run. -/
theorem eq_accepted_of_busy {i : Instr} {s t : State} (he : exec i s = .next t) (hb : t.busy = true) :
    t = accepted i s := by
  obtain ⟨-, -, h⟩ | ⟨-, -, h⟩ | ⟨-, h⟩ := exec_cases i s <;> cases h.symm.trans he
  · rfl
  all_goals exact absurd hb Bool.false_ne_true

/-- Settles O44: the request ends with `finishRequest`, after its items, whose trace elements carry the wiring of `s`. -/
theorem planRunsToEnd : Obligations.PlanRunsToEnd := by
  intro i s t rest hrest he hb hk hans
  obtain rfl := eq_accepted_of_busy he hb
  obtain ⟨hrun, -⟩ := exec_running hrest he hb
  obtain ⟨-, -, -, -, -, -, htmr⟩ := running_itemsRun i (accepted i s).plan _ hrun
  refine ⟨_, reaches_done hrest he hb hk hans, rfl, ?tmr, rfl, ?responses, ?trace, ?answers, ?port, ?rx⟩
  case tmr => rw [finishRequest_tmr, htmr]
  case responses =>
    rw [finishRequest_responses, itemsRun_responses, itemsRun_rdata]
    rfl
  case trace =>
    rw [finishRequest_trace, itemsRun_trace]
    rfl
  case answers =>
    rw [finishRequest_answers, itemsRun_answers]
    exact hans.drop
  case port =>
    rw [finishRequest_port, itemsRun_port]
    rfl
  case rx =>
    rw [finishRequest_rx, itemsRun_rx]
    rfl

/-- Settles O45: the request ends with `abortRequest`, after the items before `n` and the one that failed. -/
theorem firstFailureEnds : Obligations.FirstFailureEnds := by
  intro i s t n it rest hrest he hb hit hans
  obtain rfl := eq_accepted_of_busy he hb
  have hlen : ((accepted i s).plan.take n).length = n :=
    List.length_take_of_le (List.getElem?_eq_some_iff.1 hit).1.le
  refine ⟨_, _, reaches_failed hrest he hb hit hans, rfl, abortRequest_tmr _ _, rfl, rfl, ?responses, ?trace,
    ?answers, ?pstate⟩
  case responses =>
    simp only [abortRequest_responses, itemFailed_responses, itemsRun_responses, accepted_responses, failCode]
  case trace =>
    simp only [abortRequest_trace, itemFailed_trace, itemsRun_trace, itemTx_itemsRun]
    rfl
  case answers =>
    simp only [abortRequest_answers, itemFailed_answers, itemsRun_answers, hlen]
    exact congrArg List.tail hans.drop
  case pstate =>
    simp only [abortRequest_pstate, itemFailed_pstate, itemsRun_pstate, accepted_pstate]
    split_ifs <;> rfl

end Sys2Proof.Machine
end

section
/-! PROOFS. Reset, and the configurations that are not run (70_reset_and_hazards.md R230, R231, R233, R234). -/

namespace Sys2Proof.Machine

/-! ### The configuration check (R234) -/

theorem controlBitsLegal_iff (c : Config) : controlBitsLegal c = true ↔
    c.pRs < 4 ∧ c.pRw < 4 ∧ c.pEn < 4 ∧ c.pBl < 4 ∧ c.pRs ≠ c.pRw ∧ c.pRs ≠ c.pEn ∧ c.pRs ≠ c.pBl ∧
      c.pRw ≠ c.pEn ∧ c.pRw ≠ c.pBl ∧ c.pEn ≠ c.pBl := by
  simp [controlBitsLegal, and_assoc]

theorem configLegal_iff (c : Config) : configLegal c = true ↔
    controlBitsLegal c = true ∧ (c.numLines = 1 ∨ c.numLines = 2 ∨ c.numLines = 4) ∧
      (c.numCols = 16 ∨ c.numCols = 20 ∨ c.lineBase ≠ none) ∧ c.blockMax ≤ 254 ∧ c.readBlockLen ≤ c.blockMax := by
  simp [configLegal, and_assoc, or_assoc, Option.isSome_iff_ne_none]

/-- A busy block runs its plan or stops with a fault; it refuses nothing. -/
theorem runStep_ne_refused (s : State) (e : Refusal) : runStep s ≠ .refused e := by
  cases hreq : s.req with
  | none => simp [runStep, hreq]
  | some r =>
    obtain ⟨t, ht⟩ := runStep_next hreq
    simp [ht]

/-- The check is the only source of a refusal. -/
theorem step_eq_illegalConfig_iff (s : State) : step s = .refused .illegalConfig ↔ configLegal s.cfg = false := by
  refine ⟨fun h => ?_, fun h => if_pos h⟩
  by_contra hne
  have hc : configLegal s.cfg = true := eq_true_of_ne_false hne
  cases hr : s.rst with
  | true => cases (step_reset hc hr).symm.trans h
  | false =>
    cases hb : s.busy with
    | true => exact runStep_ne_refused s _ ((step_of_busy hc hr hb).symm.trans h)
    | false =>
      cases hf : fetchRequest s with
      | none => cases (step_of_waiting hc hr hb hf).symm.trans h
      | some iu =>
        obtain ⟨t, ht⟩ := exec_next iu.1 iu.2
        cases ht.symm.trans ((step_of_takes hc hr hb hf).symm.trans h)

/-- Settles O9: the step refuses exactly what the check does, and R234's list negates the check's conditions. -/
theorem illegalConfigRefused : Obligations.IllegalConfigRefused := by
  intro s
  rw [step_eq_illegalConfig_iff, ← Bool.not_eq_true, configLegal_iff, ← controlBitsLegal_iff]
  simp only [not_and_or, not_or, not_not, not_le, ne_eq]

/-! ### An asserted reset (R230) -/

theorem eq_applyReset_of_step {s t : State} (hr : s.rst = true) (h : step s = .next t) : t = applyReset s := by
  obtain ⟨-, ⟨-, ht⟩ | ⟨hr', -⟩ | ⟨_, _, hr', -⟩ | ⟨hr', -⟩⟩ := step_cases h
  case inl => exact ht
  all_goals exact absurd (hr'.symm.trans hr) Bool.false_ne_true

theorem applyReset_trace (s : State) : (applyReset s).trace = s.trace ++ cutTrace s := rfl

theorem cutTrace_of_flight {s : State} {r : Request} {it : Item} (hreq : s.req = some r) (hf : s.flight = some it) :
    cutTrace s = [itemTx (decodeRequest r) it s .cut] := by
  simp [cutTrace, hreq, hf]

theorem cutTrace_of_no_flight {s : State} (hf : s.flight = none) : cutTrace s = [] := by
  simp [cutTrace, hf]

/-- The prober's answer is the first scripted one. -/
theorem head?_probes_eq_nextProbe {s : State} (h : s.probes ≠ []) : s.probes.head? = some (nextProbe s) := by
  cases hp : s.probes with
  | nil => exact absurd hp h
  | cons p ps => simp [nextProbe, hp]

/-- Settles O13: the next state is `applyReset`, with the prober's answer it asks for. -/
theorem resetAbandonsRequest : Obligations.ResetAbandonsRequest := by
  intro s hc hr
  refine ⟨nextProbe s, applyReset s, step_reset hc hr, head?_probes_eq_nextProbe, rfl, rfl, rfl,
    fun hb => ?busy, fun hb => ?idle, fun r it hreq hf => ?cut, fun hf => ?uncut⟩
  case busy => rw [applyReset_display, if_pos hb]
  case idle => rw [applyReset_display, if_neg (Bool.eq_false_iff.1 hb)]
  case cut => rw [applyReset_trace, cutTrace_of_flight hreq hf]
  case uncut => rw [applyReset_trace, cutTrace_of_no_flight hf, List.append_nil]

/-! ### The address (R231) -/

theorem resolveAddr_explicit {c : Config} {a : BusAddr} (h : c.explicitAddr = some a) (p : ProbeAnswer) :
    resolveAddr c p = some a := by
  simp [resolveAddr, h]

theorem resolveAddr_probed {c : Config} (h : c.explicitAddr = none) (a : BusAddr) (rest : List BusAddr) :
    resolveAddr c (some (a :: rest)) = some a := by
  simp [resolveAddr, h, firstProbed]

theorem resolveAddr_default {c : Config} {p : ProbeAnswer} (h : c.explicitAddr = none) (hp : p = none ∨ p = some []) :
    resolveAddr c p = c.defaultAddr := by
  simp [resolveAddr, h, (firstProbed_eq_none_iff p).2 hp]

/-- The address a reset resolves is the one the block holds. -/
theorem resetWith_addr_of_resolved {c : Config} {p : ProbeAnswer} {a : BusAddr} (h : resolveAddr c p = some a) :
    (State.resetWith c p).addr = a ∧ (State.resetWith c p).addrOk = true := by
  simp [State.resetWith, resolvedAddr, resolvedOk_eq, h]

theorem resetWith_addr_of_unresolved {c : Config} {p : ProbeAnswer} (h : resolveAddr c p = none) :
    (State.resetWith c p).addr = 0 ∧ (State.resetWith c p).addrOk = false := by
  simp [State.resetWith, resolvedAddr, resolvedOk_eq, h]

theorem applyReset_probes_of_explicit {s : State} (h : s.cfg.explicitAddr ≠ none) : (applyReset s).probes = s.probes :=
  if_pos (Option.isSome_iff_ne_none.2 h)

/-- Settles O11: the resolver's four cases; a reset's probes; no other step changes the wiring. -/
theorem addressResolution : Obligations.AddressResolution := by
  refine ⟨fun c p a h => ?explicit, fun c a rest h => ?probed, fun c p a h hp hd => ?default, fun c p h hp hd => ?none,
    fun s t hr hne hst => ?unasked, fun s t hr hst => ?constant⟩
  case explicit => exact resetWith_addr_of_resolved (resolveAddr_explicit h p)
  case probed => exact resetWith_addr_of_resolved (resolveAddr_probed h a rest)
  case default => exact resetWith_addr_of_resolved ((resolveAddr_default h hp).trans hd)
  case none => exact resetWith_addr_of_unresolved ((resolveAddr_default h hp).trans hd)
  case unasked => rw [eq_applyReset_of_step hr hst, applyReset_probes_of_explicit hne]
  case constant =>
    obtain ⟨-, haddr, haddrOk, -⟩ := (stepTo_of_step hst).sameWiring hr
    exact ⟨haddr, haddrOk⟩

/-! ### The bus (R233) -/

theorem step_cfg {s t : State} (h : step s = .next t) : t.cfg = s.cfg := by
  cases hr : s.rst with
  | true => rw [eq_applyReset_of_step hr h]; rfl
  | false => exact ((stepTo_of_step h).sameWiring hr).1

/-- Settles O12: the two answers of `selectBus`; a reset keeps the configuration, and no other step changes the wiring. -/
theorem busSelection : Obligations.BusSelection := by
  refine ⟨fun c p h => if_pos h, fun c p h => if_neg h, fun s t hst => ⟨step_cfg hst, fun hr => ?_⟩⟩
  obtain ⟨-, -, -, hbus⟩ := (stepTo_of_step hst).sameWiring hr
  exact hbus

end Sys2Proof.Machine
end
